-- ==== Sys2Proof/Word.lean ====
section
/-!
DEFINITION. The word types of the block: one byte (20_memory.md R62), one operation word
(30_encoding.md R90), one value of the register `tx_phase` (30_encoding.md R96).
-/

namespace Sys2Proof

/-- Every datum the block moves is one byte (20_memory.md R62). -/
abbrev Byte := BitVec 8

/-- One step of any agent is written as one 32-bit operation word (30_encoding.md R90). -/
abbrev OpWord := BitVec 32

/-- The three bits of `tx_phase` (30_encoding.md R96). -/
abbrev PhaseBits := BitVec 3

end Sys2Proof
end

