-- ==== Sys2Proof/Syntax.lean ====
section
/-!
DEFINITION. The operations of the block: one constructor per row of opcode_table.json, 17 operation
words (30_encoding.md R93) and 6 micro-operations of the transmit sequencer (30_encoding.md R96),
with the agent that issues each, its mnemonic and the phases of the sequencer.
-/

namespace Sys2Proof

/-- The agents of 00_scope.md R12. -/
inductive Agent where
  | foreground
  | interrupt
  | environment
  deriving DecidableEq, Repr

/-- The operations. `idx` is a 10-bit and `n` a 24-bit unsigned number (30_encoding.md R92): those
two ranges are checked by `Instr.wellFormed`; the other operands have their width in their type. -/
inductive Instr where
  /-- `INIT` (40_foreground_api.md R120). -/
  | init
  /-- `PKT_AVAIL` (R121). -/
  | pktAvail
  /-- `GET_PKT` (R122). -/
  | getPkt
  /-- `GET_RX_LEN` (R123). -/
  | getRxLen
  /-- `FREE_PKT` (R125). -/
  | freePkt
  /-- `GET_TX_BUF` (R126). -/
  | getTxBuf
  /-- `START_TX` (R129). -/
  | startTx
  /-- `TX_STEP` (R130). -/
  | txStep
  /-- `RXB_LD idx` (R124). -/
  | rxbLd (idx : Nat)
  /-- `TXB_LD idx` (R127). -/
  | txbLd (idx : Nat)
  /-- `TXB_ST idx, val` (R128). -/
  | txbSt (idx : Nat) (val : Byte)
  /-- `RX_IRQ.BREAK`: the sampled `fe` is 1 (41_receive_state_machine.md R152). -/
  | rxIrqBreak (rxne : Bool) (data : Byte)
  /-- `RX_IRQ.DATA`: `fe` is 0 and `rxne` is 1 (R153). -/
  | rxIrqData (data : Byte)
  /-- `RX_IRQ.NONE`: neither flag is set (R154). -/
  | rxIrqNone (data : Byte)
  /-- `ENV_TICK n` (43_timing_primitive.md R191). -/
  | envTick (n : Nat)
  /-- `ENV_TX_DRAIN` (44_uart_and_pins_boundary.md R205). -/
  | envTxDrain
  /-- `ENV_IRQ_EN` (R206). -/
  | envIrqEn
  /-- `TXS_PIN_GPIO`, phase 001 (42_transmit_sequencer.md R171). -/
  | txsPinGpio
  /-- `TXS_IDLE_HIGH`, phase 010 (R172). -/
  | txsIdleHigh
  /-- `TXS_BREAK_LOW`, phase 011 (R173). -/
  | txsBreakLow
  /-- `TXS_MAB_HIGH`, phase 100 (R174). -/
  | txsMabHigh
  /-- `TXS_PIN_AF`, phase 101 (R175). -/
  | txsPinAf
  /-- `TXS_SEND`, phase 110 (R176). -/
  | txsSend
  deriving DecidableEq, Repr

/-- The agent whose step the operation is (30_encoding.md R93, column "agent"); the micro-operations
run in the foreground context (42_transmit_sequencer.md). -/
def Instr.agent : Instr → Agent
  | .init | .pktAvail | .getPkt | .getRxLen | .freePkt | .getTxBuf | .startTx | .txStep => .foreground
  | .rxbLd _ | .txbLd _ | .txbSt _ _ => .foreground
  | .rxIrqBreak _ _ | .rxIrqData _ | .rxIrqNone _ => .interrupt
  | .envTick _ | .envTxDrain | .envIrqEn => .environment
  | .txsPinGpio | .txsIdleHigh | .txsBreakLow | .txsMabHigh | .txsPinAf | .txsSend => .foreground

/-- Whether the operation is a micro-operation of the sequencer: "not issued by words"
(30_encoding.md R96). -/
def Instr.isMicroOp : Instr → Bool
  | .txsPinGpio | .txsIdleHigh | .txsBreakLow | .txsMabHigh | .txsPinAf | .txsSend => true
  | .init | .pktAvail | .getPkt | .getRxLen | .freePkt | .getTxBuf | .startTx | .txStep => false
  | .rxbLd _ | .txbLd _ | .txbSt _ _ => false
  | .rxIrqBreak _ _ | .rxIrqData _ | .rxIrqNone _ => false
  | .envTick _ | .envTxDrain | .envIrqEn => false

/-- The mnemonic of the operation's row (30_encoding.md R93, R96). -/
def Instr.mnemonic : Instr → String
  | .init => "INIT"
  | .pktAvail => "PKT_AVAIL"
  | .getPkt => "GET_PKT"
  | .getRxLen => "GET_RX_LEN"
  | .freePkt => "FREE_PKT"
  | .getTxBuf => "GET_TX_BUF"
  | .startTx => "START_TX"
  | .txStep => "TX_STEP"
  | .rxbLd _ => "RXB_LD"
  | .txbLd _ => "TXB_LD"
  | .txbSt _ _ => "TXB_ST"
  | .rxIrqBreak _ _ => "RX_IRQ.BREAK"
  | .rxIrqData _ => "RX_IRQ.DATA"
  | .rxIrqNone _ => "RX_IRQ.NONE"
  | .envTick _ => "ENV_TICK"
  | .envTxDrain => "ENV_TX_DRAIN"
  | .envIrqEn => "ENV_IRQ_EN"
  | .txsPinGpio => "TXS_PIN_GPIO"
  | .txsIdleHigh => "TXS_IDLE_HIGH"
  | .txsBreakLow => "TXS_BREAK_LOW"
  | .txsMabHigh => "TXS_MAB_HIGH"
  | .txsPinAf => "TXS_PIN_AF"
  | .txsSend => "TXS_SEND"

/-- The step of the transmit sequence the foreground is in (10_state.md R26). The eighth bit pattern,
111, is "never reached" (30_encoding.md R96) and is no value of the type (log 11). -/
inductive TxPhase where
  | idle
  | pinGpio
  | idleHigh
  | breakLow
  | mabHigh
  | pinAf
  | send
  deriving DecidableEq, Repr

end Sys2Proof
end

