-- ==== Sys2Proof/WellFormed.lean ====
section
/-!
DEFINITION. Which terms of `Instr` an encoding can spell: `idx` is 10 bits and `n` is 24 bits wide
(30_encoding.md R92). `idx` may exceed a buffer's capacity: such a word decodes and is refused when
it runs (95_test_vectors.md section 2.1, `0x1003FF00`).
-/

namespace Sys2Proof

/-- The operand ranges of 30_encoding.md R92. -/
def Instr.wellFormed : Instr → Bool
  | .rxbLd idx => decide (idx < 1024)
  | .txbLd idx => decide (idx < 1024)
  | .txbSt idx _ => decide (idx < 1024)
  | .envTick n => decide (n < 16777216)
  | .init | .pktAvail | .getPkt | .getRxLen | .freePkt | .getTxBuf | .startTx | .txStep => true
  | .rxIrqBreak _ _ | .rxIrqData _ | .rxIrqNone _ => true
  | .envTxDrain | .envIrqEn => true
  | .txsPinGpio | .txsIdleHigh | .txsBreakLow | .txsMabHigh | .txsPinAf | .txsSend => true

end Sys2Proof
end

