-- ==== Sys2Proof/Decode.lean ====
section
/-!
DEFINITION. The decoder, the encoder and the opcode table of 30_encoding.md. The decoder is total on
every 32-bit operation word (R90 to R95) and on every value of the 3-bit register `tx_phase` (R96),
and rejects by name. The encoder is written from the same formats. `opcodeRows` is the table of R93
with its masks, kept apart from the decoder, so that their agreement can be stated.
-/

namespace Sys2Proof

/-- What selects an operation: an operation word (30_encoding.md R90), or for a micro-operation the
contents of `tx_phase` (30_encoding.md R96). -/
inductive Code where
  | word (w : OpWord)
  | phase (p : PhaseBits)
  deriving DecidableEq, Repr

/-- Why a code spells no operation. -/
inductive DecodeError where
  /-- `opc` is not in the table of 30_encoding.md R93. -/
  | unassignedOpcode
  /-- A bit shown as 0 in 30_encoding.md R91 is set. -/
  | reservedBits
  /-- `tx_phase` is 000: `IDLE` selects no micro-operation (30_encoding.md R96). -/
  | noMicroOp
  /-- `tx_phase` is 111, reserved (30_encoding.md R96). -/
  | reservedPhase
  deriving DecidableEq, Repr

/-- The five formats of an operation word (30_encoding.md R91). -/
inductive Format where
  | f0
  | fi
  | fiv
  | ev
  | en
  deriving DecidableEq, Repr

/-- `w[hi:lo]`: the bits from `hi` down to `lo`, inclusive, as an unsigned number (00_scope.md R14). -/
def slice (w : OpWord) (hi lo : Nat) : Nat := w.toNat / 2 ^ lo % 2 ^ (hi + 1 - lo)

/-- `opc = W[31:24]` (30_encoding.md R90). -/
def opcOf (w : OpWord) : Nat := slice w 31 24

/-- `idx = W[17:8]` (30_encoding.md R92). -/
def idxOf (w : OpWord) : Nat := slice w 17 8

/-- `val = W[7:0]`, and `data = W[7:0]` of an event (30_encoding.md R92). -/
def valOf (w : OpWord) : Byte := BitVec.ofNat 8 (slice w 7 0)

/-- `fe = W[9]` (30_encoding.md R92). -/
def feOf (w : OpWord) : Bool := slice w 9 9 == 1

/-- `rxne = W[8]` (30_encoding.md R92). -/
def rxneOf (w : OpWord) : Bool := slice w 8 8 == 1

/-- `n = W[23:0]` (30_encoding.md R92). -/
def nOf (w : OpWord) : Nat := slice w 23 0

/-- The generic `RX_IRQ fe, rxne, data`: the flags pick the row (30_encoding.md R93, R97). -/
def Instr.rxIrq (fe rxne : Bool) (data : Byte) : Instr :=
  match fe, rxne with
  | true, _ => .rxIrqBreak rxne data
  | false, true => .rxIrqData data
  | false, false => .rxIrqNone data

/-- Whether every bit a format shows as 0 is 0 (30_encoding.md R91, R95). -/
def Format.reservedClear (f : Format) (w : OpWord) : Bool :=
  match f with
  | .f0 => slice w 23 0 == 0
  | .fi => slice w 23 18 == 0 && slice w 7 0 == 0
  | .fiv => slice w 23 18 == 0
  | .ev => slice w 23 10 == 0
  | .en => true

/-- The format the opcode selects (30_encoding.md R90, R93); none where the opcode is unassigned. -/
def formatOf (opc : Nat) : Option Format :=
  match opc with
  | 0x01 | 0x02 | 0x03 | 0x04 | 0x05 | 0x06 | 0x07 | 0x08 => some .f0
  | 0x10 | 0x11 => some .fi
  | 0x12 => some .fiv
  | 0x80 => some .ev
  | 0xE0 => some .en
  | 0xE1 | 0xE2 => some .f0
  | _ => none

/-- The operation of an assigned opcode with the operands of the word (30_encoding.md R92, R93). -/
def operationOf (w : OpWord) : Option Instr :=
  match opcOf w with
  | 0x01 => some .init
  | 0x02 => some .pktAvail
  | 0x03 => some .getPkt
  | 0x04 => some .getRxLen
  | 0x05 => some .freePkt
  | 0x06 => some .getTxBuf
  | 0x07 => some .startTx
  | 0x08 => some .txStep
  | 0x10 => some (.rxbLd (idxOf w))
  | 0x11 => some (.txbLd (idxOf w))
  | 0x12 => some (.txbSt (idxOf w) (valOf w))
  | 0x80 => some (.rxIrq (feOf w) (rxneOf w) (valOf w))
  | 0xE0 => some (.envTick (nOf w))
  | 0xE1 => some .envTxDrain
  | 0xE2 => some .envIrqEn
  | _ => none

/-- The decoder of operation words (30_encoding.md R95: every word is one row of R93 or invalid). -/
def decodeWord (w : OpWord) : Except DecodeError Instr :=
  match formatOf (opcOf w), operationOf w with
  | some f, some i => if f.reservedClear w then .ok i else .error .reservedBits
  | _, _ => .error .unassignedOpcode

/-- The micro-operation a value of `tx_phase` selects (30_encoding.md R96). -/
def decodePhase (p : PhaseBits) : Except DecodeError Instr :=
  match p.toNat with
  | 0 => .error .noMicroOp
  | 1 => .ok .txsPinGpio
  | 2 => .ok .txsIdleHigh
  | 3 => .ok .txsBreakLow
  | 4 => .ok .txsMabHigh
  | 5 => .ok .txsPinAf
  | 6 => .ok .txsSend
  | _ => .error .reservedPhase

/-- The decoder, total on both kinds of code. -/
def decode : Code → Except DecodeError Instr
  | .word w => decodeWord w
  | .phase p => decodePhase p

/-- An operation word put together from its opcode and the bits below it (30_encoding.md R91). -/
def packWord (opc low : Nat) : OpWord := BitVec.ofNat 32 (opc * 2 ^ 24 + low)

/-- The bits below the opcode of an event (format EV of 30_encoding.md R91). -/
def packEvent (fe rxne : Bool) (data : Byte) : Nat :=
  fe.toNat * 2 ^ 9 + rxne.toNat * 2 ^ 8 + data.toNat

/-- The encoder: the code of an operation, from the formats of 30_encoding.md R91, the opcodes of R93
and the phases of R96. -/
def encode : Instr → Code
  | .init => .word (packWord 0x01 0)
  | .pktAvail => .word (packWord 0x02 0)
  | .getPkt => .word (packWord 0x03 0)
  | .getRxLen => .word (packWord 0x04 0)
  | .freePkt => .word (packWord 0x05 0)
  | .getTxBuf => .word (packWord 0x06 0)
  | .startTx => .word (packWord 0x07 0)
  | .txStep => .word (packWord 0x08 0)
  | .rxbLd idx => .word (packWord 0x10 (idx * 2 ^ 8))
  | .txbLd idx => .word (packWord 0x11 (idx * 2 ^ 8))
  | .txbSt idx val => .word (packWord 0x12 (idx * 2 ^ 8 + val.toNat))
  | .rxIrqBreak rxne data => .word (packWord 0x80 (packEvent true rxne data))
  | .rxIrqData data => .word (packWord 0x80 (packEvent false true data))
  | .rxIrqNone data => .word (packWord 0x80 (packEvent false false data))
  | .envTick n => .word (packWord 0xE0 n)
  | .envTxDrain => .word (packWord 0xE1 0)
  | .envIrqEn => .word (packWord 0xE2 0)
  | .txsPinGpio => .phase 1
  | .txsIdleHigh => .phase 2
  | .txsBreakLow => .phase 3
  | .txsMabHigh => .phase 4
  | .txsPinAf => .phase 5
  | .txsSend => .phase 6

/-- The encoding of `tx_phase` (30_encoding.md R96). -/
def TxPhase.bits : TxPhase → PhaseBits
  | .idle => 0
  | .pinGpio => 1
  | .idleHigh => 2
  | .breakLow => 3
  | .mabHigh => 4
  | .pinAf => 5
  | .send => 6

/-- The phase a bit pattern encodes; none for the reserved 111 (30_encoding.md R96). -/
def TxPhase.ofBits (p : PhaseBits) : Option TxPhase :=
  match p.toNat with
  | 0 => some .idle
  | 1 => some .pinGpio
  | 2 => some .idleHigh
  | 3 => some .breakLow
  | 4 => some .mabHigh
  | 5 => some .pinAf
  | 6 => some .send
  | _ => none

/-- The agent of an opcode range (30_encoding.md R94): `opc[7:4]` is 0 or 1 for the foreground, 8 for
the interrupt context, 14 for the environment. -/
def agentOfOpcode (opc : Nat) : Option Agent :=
  match opc / 16 with
  | 0x0 | 0x1 => some .foreground
  | 0x8 => some .interrupt
  | 0xE => some .environment
  | _ => none

/-- One row of the opcode map: a word `W` is the row's operation when `W & mask = bits`
(30_encoding.md R93). -/
structure OpcodeRow where
  mnemonic : String
  bits : OpWord
  mask : OpWord
  deriving DecidableEq, Repr

/-- The foreground rows of the opcode map (30_encoding.md R93). -/
def foregroundRows : List OpcodeRow :=
  [⟨"INIT", 0x01000000, 0xFFFFFFFF⟩, ⟨"PKT_AVAIL", 0x02000000, 0xFFFFFFFF⟩,
   ⟨"GET_PKT", 0x03000000, 0xFFFFFFFF⟩, ⟨"GET_RX_LEN", 0x04000000, 0xFFFFFFFF⟩,
   ⟨"FREE_PKT", 0x05000000, 0xFFFFFFFF⟩, ⟨"GET_TX_BUF", 0x06000000, 0xFFFFFFFF⟩,
   ⟨"START_TX", 0x07000000, 0xFFFFFFFF⟩, ⟨"TX_STEP", 0x08000000, 0xFFFFFFFF⟩,
   ⟨"RXB_LD", 0x10000000, 0xFFFC00FF⟩, ⟨"TXB_LD", 0x11000000, 0xFFFC00FF⟩,
   ⟨"TXB_ST", 0x12000000, 0xFFFC0000⟩]

/-- The opcode map of 30_encoding.md R93, all 17 rows. -/
def opcodeRows : List OpcodeRow :=
  foregroundRows ++
  [⟨"RX_IRQ.BREAK", 0x80000200, 0xFFFFFE00⟩, ⟨"RX_IRQ.DATA", 0x80000100, 0xFFFFFF00⟩,
   ⟨"RX_IRQ.NONE", 0x80000000, 0xFFFFFF00⟩, ⟨"ENV_TICK", 0xE0000000, 0xFF000000⟩,
   ⟨"ENV_TX_DRAIN", 0xE1000000, 0xFFFFFFFF⟩, ⟨"ENV_IRQ_EN", 0xE2000000, 0xFFFFFFFF⟩]

/-- Whether a word is the operation of a row (30_encoding.md R93). -/
def OpcodeRow.matchesWord (r : OpcodeRow) (w : OpWord) : Bool := w &&& r.mask == r.bits

/-- The host's reading of an opcode-table row: `w` holds the row's bits, bit 0 the least significant of
the only word. A row of 32 bits is an operation word; a row of at most 8 bits is a value of the 3-bit
register `tx_phase` (format S of 30_encoding.md R96). -/
def decodeTableWord (nbits w : Nat) : Option Instr :=
  if nbits ≤ 8 then
    if w < 8 then (decode (.phase (BitVec.ofNat 3 w))).toOption else none
  else
    if w < 2 ^ 32 then (decode (.word (BitVec.ofNat 32 w))).toOption else none

end Sys2Proof
end

