-- ==== Sys2Proof/Config.lean ====
section
/-!
DEFINITION. What an implementation of the block fixes (00_scope.md section 4) and the free values:
the values the spec leaves arbitrary after `INIT` (93_implementation_defined.md section 2), and the bits of a
frame on the line.
-/

namespace Sys2Proof

/-- `RX_PULL`, the pull direction of the receive pin: open, read by no rule
(92_eei_decisions.md D37). -/
inductive Pull where
  | up
  | down
  deriving DecidableEq, Repr

/-- The implementation parameters of 00_scope.md R8, R9, R10 and 92_eei_decisions.md D37. -/
structure Params where
  /-- `RX_CAPACITY`, bytes in `rx_buffer` (R8). -/
  rxCapacity : Nat
  /-- `TX_CAPACITY`, bytes in `tx_buffer` (R8). -/
  txCapacity : Nat
  /-- `T_IDLE`, the idle-high interval in cycles (R9). -/
  tIdle : Nat
  /-- `T_BREAK`, the break in cycles (R9). -/
  tBreak : Nat
  /-- `T_MAB`, the mark-after-break in cycles (R9). -/
  tMab : Nat
  /-- `MIN_BREAK_US`, the protocol's minimum break in microseconds (R9). -/
  minBreakUs : Nat
  /-- `MIN_MAB_US`, the protocol's minimum mark-after-break in microseconds (R9). -/
  minMabUs : Nat
  /-- `CYC_WIDTH`, bits of the cycle counter (R10). -/
  cycWidth : Nat
  /-- `CYCLES_PER_US`, counter increments per microsecond (R10). -/
  cyclesPerUs : Nat
  /-- `RX_PULL` (D37). -/
  rxPull : Pull
  deriving DecidableEq, Repr

/-- A duration of `u` microseconds in counter cycles (43_timing_primitive.md R194). -/
def Params.cycles (p : Params) (u : Nat) : Nat := u * p.cyclesPerUs

/-- The legal parameter sets: the ranges of 00_scope.md R8 to R10 and the constraints of
42_transmit_sequencer.md R181. No operation checks them: with another set the machine still runs,
and the pulse minimums are "no longer guaranteed" (70_reset_and_hazards.md R270). -/
abbrev Params.Legal (p : Params) : Prop :=
  1 ≤ p.rxCapacity ∧ p.rxCapacity ≤ 513 ∧ 1 ≤ p.txCapacity ∧ p.txCapacity ≤ 513 ∧
  0 < p.minBreakUs ∧ 0 < p.minMabUs ∧ 2 ≤ p.cycWidth ∧ 1 ≤ p.cyclesPerUs ∧
  p.cycles p.minBreakUs < p.tBreak ∧ p.cycles p.minMabUs ≤ p.tMab ∧
  p.tIdle < 2 ^ (p.cycWidth - 1) ∧ p.tBreak < 2 ^ (p.cycWidth - 1) ∧
  p.tMab < 2 ^ (p.cycWidth - 1)

/-- The parameter set the power-on state carries: `P7` of 95_test_vectors.md.
DESIGN CHOICE (log 1): every parameter is open in the spec, and no operation writes the field. -/
def Config.p7 : Params where
  rxCapacity := 7
  txCapacity := 7
  tIdle := 100
  tBreak := 1000
  tMab := 120
  minBreakUs := 88
  minMabUs := 8
  cycWidth := 32
  cyclesPerUs := 10
  rxPull := .up

/-- Free value (log 7): the transmit pin's output latch after `INIT` (10_state.md R32, R41). -/
opaque Config.freeTxLevel : Nat → Bool

/-- Free value (log 7): the UART's data register after `INIT` (10_state.md R41). -/
opaque Config.freeTdr : Nat → Byte

/-- Free value (log 7): `wait_t0` after `INIT` (10_state.md R41). -/
opaque Config.freeWaitT0 : Nat → Nat

/-- Free value (log 21): the level of the line while a frame may be on it, by the entries logged, the bytes
loaded and the time (10_state.md R34; 20_memory.md R62 makes a frame an atomic byte). -/
opaque Config.freeFrameLevel : Nat → Nat → Nat → Bool

end Sys2Proof
end

