-- ==== Sys2Proof/Machine/State.lean ====
section
/-!
DEFINITION. The state of the block (10_state.md), whole: the Driver State the source defines, the
registers the spec adds, the UART, pin and counter state at the boundary, the ghost state, and the
model's own fields; the reasons a step can stop; and the power-on state.
-/

namespace Sys2Proof.Machine

/-- A GPIO line with its pin identifier: a port and a pin number, opaque (10_state.md R20). -/
structure Pin where
  port : Nat
  number : Nat
  deriving DecidableEq, Repr

/-- The Driver Configuration (10_state.md R20): identifiers the block never computes with. -/
structure DriverConfig where
  uart : Nat
  rxPin : Pin
  txPin : Pin
  dirPin : Pin
  deriving DecidableEq, Repr

/-- `parity` of the UART configuration (10_state.md R31). The spec names `none` only; `other` stands for
any setting before `INIT` that it does not name (log 15). -/
inductive Parity where
  | none
  | other
  deriving DecidableEq, Repr

/-- `flow_control` of the UART configuration (10_state.md R31); `other` as for `Parity` (log 15). -/
inductive FlowControl where
  | none
  | other
  deriving DecidableEq, Repr

/-- The UART configuration `uart_cfg` (10_state.md R31). -/
structure UartConfig where
  baud : Nat
  dataBits : Nat
  stopBits : Nat
  parity : Parity
  flowControl : FlowControl
  rxIrqEnable : Bool
  deriving DecidableEq, Repr

/-- Mode of the receive pin (10_state.md R32); `unconfigured` is its unnamed mode before `INIT`
(log 15). -/
inductive RxPinMode where
  | unconfigured
  | inputPulled
  deriving DecidableEq, Repr

/-- Mode of the transmit pin: UART alternate function or plain digital output (10_state.md R32). -/
inductive TxPinMode where
  | af
  | gpio
  deriving DecidableEq, Repr

/-- Mode of the direction pin (10_state.md R32); `unconfigured` is its unnamed mode before `INIT`
(log 15). -/
inductive DirPinMode where
  | unconfigured
  | output
  deriving DecidableEq, Repr

/-- What the block does to the transmit line (10_state.md R34). -/
inductive WireEvent where
  | mode (m : TxPinMode)
  | level (l : Bool)
  | frame (b : Byte)
  deriving DecidableEq, Repr

/-- One entry of `wire_log`, stamped with `now` (10_state.md R34). -/
structure LogEntry where
  now : Nat
  event : WireEvent
  deriving DecidableEq, Repr

/-- A view: "the name of an address space (`RXB` or `TXB`) or `NULL`" (30_encoding.md R99). -/
inductive View where
  | null
  | rxb
  | txb
  deriving DecidableEq, Repr

/-- What an operation returned (30_encoding.md R99); `none` before any operation has returned a value. -/
inductive Ret where
  | none
  /-- The opaque handle of `INIT`. -/
  | handle
  /-- The boolean of `PKT_AVAIL`. -/
  | bool (b : Bool)
  /-- The view and length of `GET_PKT`. -/
  | packet (view : View) (length : Nat)
  /-- The length of `GET_RX_LEN`. -/
  | length (n : Nat)
  /-- The view of `GET_TX_BUF`. -/
  | view (v : View)
  /-- The byte of `RXB_LD` and `TXB_LD`. -/
  | byte (b : Byte)
  deriving DecidableEq, Repr

/-- The contents of one index space (20_memory.md R60): (index, byte) pairs, indices strictly rising, no
pair with byte 0; an unlisted index reads 0. `INIT` makes every byte 0 (10_state.md R41), which is the
empty list. Before `INIT` the contents are unspecified and 0 is a DESIGN CHOICE (log 14). -/
abbrev Memory := List Host.Cell

/-- The state of the block and of the schedule it runs. -/
structure State where
  /-- MODEL's own: the implementation parameters (00_scope.md section 4); no step writes them (log 1). -/
  params : Params
  /-- `cfg` (10_state.md R20). -/
  cfg : DriverConfig
  /-- `rx_buffer` (R21), the space `RXB`. -/
  rxBuffer : Memory
  /-- `rx_position` (R22). -/
  rxPosition : Nat
  /-- `rx_ready` (R23). -/
  rxReady : Bool
  /-- `tx_buffer` (R24), the space `TXB`. -/
  txBuffer : Memory
  /-- `tx_phase` (R26). -/
  txPhase : TxPhase
  /-- `tx_index` (R26). -/
  txIndex : Nat
  /-- `wait_armed` (R27). -/
  waitArmed : Bool
  /-- `wait_t0` (R27), `CYC_WIDTH` bits: a number below `2^CYC_WIDTH` (log 10). -/
  waitT0 : Nat
  /-- `inited` (R28). -/
  inited : Bool
  /-- `irq_enabled` (R28). -/
  irqEnabled : Bool
  /-- `txe` (R30). -/
  txe : Bool
  /-- `tdr` (R30). -/
  tdr : Byte
  /-- `uart_cfg` (R31). -/
  uartCfg : UartConfig
  /-- `rx_pin_mode` (R32). -/
  rxPinMode : RxPinMode
  /-- `tx_pin_mode` (R32). -/
  txPinMode : TxPinMode
  /-- `tx_level` (R32). -/
  txLevel : Bool
  /-- `dir_pin_mode` (R32). -/
  dirPinMode : DirPinMode
  /-- `dir_level` (R32). -/
  dirLevel : Bool
  /-- `cyc` (R33), `CYC_WIDTH` bits: a number below `2^CYC_WIDTH` (log 10). -/
  cyc : Nat
  /-- `now` (R34), a ghost. -/
  now : Nat
  /-- `wire_log` (R34), a ghost, oldest entry first. -/
  wireLog : List LogEntry
  /-- MODEL's own: the operation words still to run, the next one first (30_encoding.md R90; log 3). -/
  trace : List OpWord
  /-- MODEL's own: the configuration presented beside the `INIT` word (30_encoding.md R92; log 13). -/
  cfgInput : DriverConfig
  /-- MODEL's own: what the last value-returning operation returned (30_encoding.md R99; log 4). -/
  ret : Ret
  /-- MODEL's own: the counter the free values of `INIT` are taken at (log 7). -/
  freeCount : Nat
  deriving DecidableEq, Repr

/-- The reasons the machine stops with a fault: the one of 60_exceptions.md R221. -/
inductive Fault where
  /-- `Fault(PeripheralOverrun)`: a receive event arrives while an earlier one is undelivered. Raised by no
  step of this model, which gives every event to the handler at once; R226 says of such a model that it
  "never raises it" (log 8). Unsafe where a late handler loses events. -/
  | peripheralOverrun
  deriving DecidableEq, Repr

/-- The reasons an operation is refused: the eight of the closed list (60_exceptions.md R221) and the host's
`notModelled`. Each is safe: nothing can be proved about a next state. -/
inductive Refusal where
  /-- The host's name for an operation whose meaning is not written; no reason of the spec, raised by
  nothing. -/
  | notModelled (mnemonic : String)
  /-- Raised by every operation but `INIT`, `ENV_TICK`, `ENV_IRQ_EN` when `inited` is false (for `RX_IRQ`
  only with `irq_enabled` true). -/
  | notInitialised
  /-- Raised by `INIT` when `inited` is true. -/
  | alreadyInitialised
  /-- Raised by every foreground operation but `TX_STEP` when `tx_phase` is not `IDLE`. -/
  | foregroundBusy
  /-- Raised by `TX_STEP` when `tx_phase` is `IDLE`. -/
  | noTransmission
  /-- Raised by `RXB_LD` when `rx_ready` is false. -/
  | rxBufferNotOwned
  /-- Raised by `RXB_LD`, `TXB_LD`, `TXB_ST` when the index is not below the capacity; by `TXS_SEND` too, in
  states no run reaches (20_memory.md R63; log 9). -/
  | indexOutOfRange
  /-- Raised by `START_TX` when `txe` is false. -/
  | transmitterNotDrained
  /-- Raised by the step when the next word is invalid (30_encoding.md R95). -/
  | badEncoding
  deriving DecidableEq, Repr

/-- The outcome of one operation (00_scope.md R13). -/
abbrev Result := Host.Outcome State Fault Refusal

/-- An identifier of no line. -/
def Pin.zero : Pin := ⟨0, 0⟩

/-- A configuration of zeros. -/
def DriverConfig.zero : DriverConfig := ⟨0, Pin.zero, Pin.zero, Pin.zero⟩

/-- The power-on state (10_state.md R40). The spec gives `inited`, `irq_enabled`, `now` and `wire_log`;
every other register is unspecified there and holds the value named here, a DESIGN CHOICE
(log 1, 2, 13, 14, 15). -/
def State.reset : State where
  params := Config.p7
  cfg := DriverConfig.zero
  rxBuffer := []
  rxPosition := 0
  rxReady := false
  txBuffer := []
  txPhase := .idle
  txIndex := 0
  waitArmed := false
  waitT0 := 0
  inited := false
  irqEnabled := false
  txe := false
  tdr := 0
  uartCfg := ⟨0, 0, 0, .none, .none, false⟩
  rxPinMode := .unconfigured
  txPinMode := .af
  txLevel := false
  dirPinMode := .unconfigured
  dirLevel := false
  cyc := 0
  now := 0
  wireLog := []
  trace := []
  cfgInput := DriverConfig.zero
  ret := .none
  freeCount := 0

end Sys2Proof.Machine
end

