-- ==== Sys2Proof/Machine/Ops.lean ====
section
/-!
DEFINITION. The named operations over the buffers and the registers, fetching the next operation word,
and the one exception of the block: entry to the receive handler and its return
(60_exceptions.md R225, R226).
-/

namespace Sys2Proof.Machine

/-! ### The index spaces (20_memory.md R60) -/

/-- The byte at an index; an unlisted index reads 0. -/
def Memory.read : Memory → Nat → Byte
  | [], _ => 0
  | c :: m, i => if c.1 = i then c.2 else Memory.read m i

/-- Write the byte `b` at the index `i`, keeping the canonical form: writing 0 unlists the index. -/
def Memory.write : Memory → Nat → Byte → Memory
  | [], i, b => if b = 0 then [] else [(i, b)]
  | c :: m, i, b =>
    if i < c.1 then (if b = 0 then c :: m else (i, b) :: c :: m)
    else if i = c.1 then (if b = 0 then m else (i, b) :: m)
    else c :: Memory.write m i b

/-- Whether an index is above an optional lower bound. -/
def Memory.above : Option Nat → Nat → Bool
  | none, _ => true
  | some a, i => decide (a < i)

/-- The indices of `m` are above `lo` and rising, and no listed byte is 0. -/
def Memory.rising : Option Nat → Memory → Bool
  | _, [] => true
  | lo, c :: m => Memory.above lo c.1 && c.2 != 0 && Memory.rising (some c.1) m

/-- The canonical form: indices strictly rising, no listed byte 0. -/
def Memory.wf (m : Memory) : Bool := Memory.rising none m

/-- Every listed index is below the capacity (20_memory.md R63). -/
def Memory.within (m : Memory) (capacity : Nat) : Bool := m.all (fun c => decide (c.1 < capacity))

/-- The two byte arrays reached by index. The third space, `UDR`, is one location: its read is
`Snapshot.sample`, its write `State.loadTdr` (20_memory.md R60). -/
inductive Buffer where
  | rxb
  | txb
  deriving DecidableEq, Repr

/-- How many bytes a buffer holds (00_scope.md R8). -/
def State.capacity (s : State) : Buffer → Nat
  | .rxb => s.params.rxCapacity
  | .txb => s.params.txCapacity

/-- `MemRead(space, i, 1)` (00_scope.md R14). -/
def State.memRead (s : State) : Buffer → Nat → Byte
  | .rxb, i => s.rxBuffer.read i
  | .txb, i => s.txBuffer.read i

/-- `rx_buffer <- m`. -/
def State.setRxBuffer (s : State) (m : Memory) : State := { s with rxBuffer := m }

/-- `tx_buffer <- m`. -/
def State.setTxBuffer (s : State) (m : Memory) : State := { s with txBuffer := m }

/-- `MemWrite(space, i, 1, v)` (00_scope.md R14). -/
def State.memWrite (s : State) : Buffer → Nat → Byte → State
  | .rxb, i, v => s.setRxBuffer (s.rxBuffer.write i v)
  | .txb, i, v => s.setTxBuffer (s.txBuffer.write i v)

/-! ### Registers -/

/-- `ret <- r` (30_encoding.md R99). -/
def State.setRet (s : State) (r : Ret) : State := { s with ret := r }

/-- `rx_position <- n`. -/
def State.setRxPosition (s : State) (n : Nat) : State := { s with rxPosition := n }

/-- `tx_phase <- p`: the sequencer's control transfer (00_scope.md R14, 42_transmit_sequencer.md R184). -/
def State.setTxPhase (s : State) (p : TxPhase) : State := { s with txPhase := p }

/-- `tx_index <- n`. -/
def State.setTxIndex (s : State) (n : Nat) : State := { s with txIndex := n }

/-- `log(e)`: append `e`, stamped with `now`, to `wire_log` (00_scope.md R14). -/
def State.log (s : State) (e : WireEvent) : State :=
  { s with wireLog := s.wireLog ++ [⟨s.now, e⟩] }

/-- `tx_pin_mode <- m ; log(Mode(m))` (42_transmit_sequencer.md R171, R175). -/
def State.switchTxPin (s : State) (m : TxPinMode) : State :=
  { s.log (.mode m) with txPinMode := m }

/-- `tx_level <- l ; log(Level(l))` (42_transmit_sequencer.md R172 to R174). -/
def State.driveTx (s : State) (l : Bool) : State :=
  { s.log (.level l) with txLevel := l }

/-- The write of `UDR`: `tdr <- b`, which clears `txe` (20_memory.md R65 (b)). -/
def State.loadTdr (s : State) (b : Byte) : State := { s with tdr := b, txe := false }

/-! ### The counter and the busy-wait (43_timing_primitive.md) -/

/-- `2^CYC_WIDTH`, the modulus of the cycle counter (43_timing_primitive.md R190). -/
def modulus (p : Params) : Nat := 2 ^ p.cycWidth

/-- `cyc <- (cyc + n) mod 2^CYC_WIDTH ; now <- now + n` (43_timing_primitive.md R191). -/
def State.advance (s : State) (n : Nat) : State :=
  { s with cyc := (s.cyc + n) % modulus s.params, now := s.now + n }

/-- `(cyc - wait_t0) mod 2^CYC_WIDTH`, an unsigned number (43_timing_primitive.md R192, R196 (d)). -/
def State.elapsed (s : State) : Nat :=
  (s.cyc + (modulus s.params - s.waitT0 % modulus s.params)) % modulus s.params

/-- `wait_t0 <- cyc ; wait_armed <- true` (43_timing_primitive.md R192). -/
def State.armWait (s : State) : State := { s with waitT0 := s.cyc, waitArmed := true }

/-- `wait_armed <- false` (43_timing_primitive.md R192). -/
def State.disarmWait (s : State) : State := { s with waitArmed := false }

/-- What one turn of the busy-wait returns (43_timing_primitive.md R192). -/
inductive Poll where
  | armedNow
  | waiting
  | done
  deriving DecidableEq, Repr

/-- `busy_wait_poll(n)` (43_timing_primitive.md R192). -/
def busyWaitPoll (n : Nat) (s : State) : Poll × State :=
  if s.waitArmed = false then (.armedNow, s.armWait)
  else if s.elapsed < n then (.waiting, s)
  else (.done, s.disarmWait)

/-! ### The schedule (30_encoding.md R90) -/

/-- The operation words still to run become `ws`. -/
def State.setTrace (s : State) (ws : List OpWord) : State := { s with trace := ws }

/-- The next operation word, and the state once it is taken off the trace; none when no agent is
scheduled. -/
def fetch (s : State) : Option (OpWord × State) :=
  match s.trace with
  | [] => none
  | w :: ws => some (w, s.setTrace ws)

/-! ### The receive interrupt (60_exceptions.md R225, R226) -/

/-- Entry to the handler: "of the block's state an entry saves nothing, changes no mode bit and no
mask" (60_exceptions.md R225). -/
def interruptEntry (s : State) : State := s

/-- Return from the handler: "the return restores nothing of the block's state"
(60_exceptions.md R226). -/
def interruptReturn (s : State) : State := s

/-- One handler invocation (41_receive_state_machine.md R150): with the line disabled the event is lost
and nothing changes (60_exceptions.md R223; log 5); before `INIT` it is refused; otherwise the handler's
body runs from entry to return. -/
def takeInterrupt (body : State → State) (s : State) : Result :=
  if s.irqEnabled = false then .next s
  else if s.inited = false then .refused .notInitialised
  else .next (interruptReturn (body (interruptEntry s)))

end Sys2Proof.Machine
end

