-- ==== Sys2Proof/Machine/Flags.lean ====
section
/-!
DEFINITION. The flags of the block (10_state.md R36): what sets and clears each, and the admission checks
that read `inited`, `tx_phase` and `irq_enabled` (40_foreground_api.md R132). `wait_armed` is set and
cleared in Ops.lean by the busy-wait, `txe` is cleared there by the write of `UDR`.
-/

namespace Sys2Proof.Machine

/-- `rx_ready <- b`: set by the handler's last store, cleared by `FREE_PKT` (10_state.md R23). -/
def State.setRxReady (s : State) (b : Bool) : State := { s with rxReady := b }

/-- `txe <- true`: the UART has taken the byte of `tdr` (10_state.md R36). -/
def State.setTxe (s : State) : State := { s with txe := true }

/-- `irq_enabled <- true` (44_uart_and_pins_boundary.md R206). -/
def State.setIrqEnabled (s : State) : State := { s with irqEnabled := true }

/-- The check of `inited` (40_foreground_api.md R132). -/
def whenInited (s : State) (k : Result) : Result :=
  if s.inited = false then .refused .notInitialised else k

/-- The two checks of every foreground operation but `INIT` and `TX_STEP`, in the order of
40_foreground_api.md R132: `inited`, then `tx_phase`. -/
def foregroundOp (s : State) (k : Result) : Result :=
  whenInited s (if s.txPhase = .idle then k else .refused .foregroundBusy)

end Sys2Proof.Machine
end

