-- ==== Sys2Proof/Machine/Environment.lean ====
section
/-!
DEFINITION. The environment's operations: time (43_timing_primitive.md R191), the UART's transmitter
(44_uart_and_pins_boundary.md R205) and the platform's interrupt line (R206).
-/

namespace Sys2Proof.Machine

/-- `ENV_TICK n` (43_timing_primitive.md R191): it has a step in every state. -/
def execEnvTick (n : Nat) (s : State) : Result := .next (s.advance n)

/-- `ENV_TX_DRAIN` (44_uart_and_pins_boundary.md R205): with `txe` true there is nothing to drain and
nothing changes (log 5). -/
def execEnvTxDrain (s : State) : Result :=
  whenInited s (if s.txe then .next s else .next ((s.log (.frame s.tdr)).setTxe))

/-- `ENV_IRQ_EN` (44_uart_and_pins_boundary.md R206). -/
def execEnvIrqEn (s : State) : Result := .next s.setIrqEnabled

end Sys2Proof.Machine
end

