-- ==== Sys2Proof/Machine/Operands.lean ====
section
/-!
DEFINITION. The operand forms that are more than a field of the word: a buffer index checked against
the buffer's capacity, and the snapshot of a receive event. (The bit fields themselves are assembled in
Decode.lean, 30_encoding.md R92.)
-/

namespace Sys2Proof.Machine

/-- A foreground access through a view: an index not below the capacity is refused
(20_memory.md R63, 92_eei_decisions.md D17). -/
def withIndex (s : State) (b : Buffer) (idx : Nat) (access : Result) : Result :=
  if idx < s.capacity b then access else .refused .indexOutOfRange

/-- The snapshot the handler takes at entry (41_receive_state_machine.md R151): `fe`, and the byte read
from `UDR`, which is read only when `rxne` is set. -/
structure Snapshot where
  fe : Bool
  byte : Option Byte
  deriving DecidableEq, Repr

/-- Step 1 of every invocation, sampling (41_receive_state_machine.md R151). -/
def Snapshot.sample (fe rxne : Bool) (data : Byte) : Snapshot :=
  ⟨fe, if rxne then some data else none⟩

end Sys2Proof.Machine
end

