-- ==== Sys2Proof/Machine/Foreground.lean ====
section
/-!
DEFINITION. The foreground operations of 40_foreground_api.md, but for `TX_STEP`, which is in
Transmit.lean beside the micro-operations it runs.
-/

namespace Sys2Proof.Machine

/-- The serial format `INIT` configures (10_state.md R31): 250000 baud, 8 data bits, 2 stop bits, no
parity, no flow control, receive interrupt enabled. -/
def dmxUartConfig : UartConfig := ⟨250000, 8, 2, .none, .none, true⟩

/-- The state after `INIT` (40_foreground_api.md R120, 10_state.md R41). `tx_level`, `tdr` and `wait_t0`
are unspecified there and are free values (log 7). `wire_log` is unchanged, as R41 and R35 say; the
pseudocode of R120 logs `Mode(AF)` (log 6). -/
def State.construct (s : State) : State :=
  { s with
    cfg := s.cfgInput
    rxBuffer := []
    rxPosition := 0
    rxReady := false
    txBuffer := []
    rxPinMode := .inputPulled
    txPinMode := .af
    dirPinMode := .output
    dirLevel := false
    uartCfg := dmxUartConfig
    txe := true
    txPhase := .idle
    txIndex := 0
    waitArmed := false
    inited := true
    txLevel := Config.freeTxLevel s.freeCount
    tdr := Config.freeTdr s.freeCount
    waitT0 := Config.freeWaitT0 s.freeCount % modulus s.params
    freeCount := s.freeCount + 1
    ret := .handle }

/-- `INIT` (40_foreground_api.md R120). -/
def execInit (s : State) : Result :=
  if s.inited then .refused .alreadyInitialised else .next s.construct

/-- `PKT_AVAIL` (40_foreground_api.md R121). -/
def execPktAvail (s : State) : Result :=
  foregroundOp s (.next (s.setRet (.bool s.rxReady)))

/-- `GET_PKT` (40_foreground_api.md R122): the view and the capacity, or `(NULL, 0)` when no packet is
ready. -/
def execGetPkt (s : State) : Result :=
  foregroundOp s (.next (s.setRet
    (if s.rxReady then .packet .rxb (s.capacity .rxb) else .packet .null 0)))

/-- `GET_RX_LEN` (40_foreground_api.md R123). -/
def execGetRxLen (s : State) : Result :=
  foregroundOp s (.next (s.setRet (.length (s.capacity .rxb))))

/-- `RXB_LD idx` (40_foreground_api.md R124): refused while the interrupt context owns the buffer. -/
def execRxbLd (idx : Nat) (s : State) : Result :=
  foregroundOp s
    (if s.rxReady = false then .refused .rxBufferNotOwned
     else withIndex s .rxb idx (.next (s.setRet (.byte (s.memRead .rxb idx)))))

/-- `FREE_PKT` (40_foreground_api.md R125). -/
def execFreePkt (s : State) : Result :=
  foregroundOp s (.next (s.setRxReady false))

/-- `GET_TX_BUF` (40_foreground_api.md R126). -/
def execGetTxBuf (s : State) : Result :=
  foregroundOp s (.next (s.setRet (.view .txb)))

/-- `TXB_LD idx` (40_foreground_api.md R127). -/
def execTxbLd (idx : Nat) (s : State) : Result :=
  foregroundOp s (withIndex s .txb idx (.next (s.setRet (.byte (s.memRead .txb idx)))))

/-- `TXB_ST idx, val` (40_foreground_api.md R128). -/
def execTxbSt (idx : Nat) (val : Byte) (s : State) : Result :=
  foregroundOp s (withIndex s .txb idx (.next (s.memWrite .txb idx val)))

/-- `START_TX` (40_foreground_api.md R129): refused while the UART still holds a byte. -/
def execStartTx (s : State) : Result :=
  foregroundOp s
    (if s.txe = false then .refused .transmitterNotDrained else .next (s.setTxPhase .pinGpio))

end Sys2Proof.Machine
end

