-- ==== Sys2Proof/Machine/Receive.lean ====
section
/-!
DEFINITION. The receive state machine (41_receive_state_machine.md): the three cases of a handler
invocation, the whole handler as one function of the snapshot (R155), the names of the receive states
(R156) and the conditions of the error taxonomy (60_exceptions.md R215 to R218), which are ordinary next
states and record nothing.
-/

namespace Sys2Proof.Machine

/-- Step 2 of the handler, the break (41_receive_state_machine.md R152). -/
def restartUniverse (s : State) : State := s.setRxPosition 0

/-- Step 3 of the handler, the data byte (41_receive_state_machine.md R153): stored while there is room
and the interrupt context owns the buffer, with `rx_ready` set by the last slot; dropped otherwise. -/
def storeSlot (data : Byte) (s : State) : State :=
  if s.rxPosition < s.capacity .rxb ∧ s.rxReady = false then
    let stored := (s.memWrite .rxb s.rxPosition data).setRxPosition (s.rxPosition + 1)
    if s.rxPosition + 1 = s.capacity .rxb then stored.setRxReady true else stored
  else s

/-- `RX_IRQ.BREAK` (41_receive_state_machine.md R152): `rxne` and `data` are ignored after sampling. -/
def execRxIrqBreak (_rxne : Bool) (_data : Byte) (s : State) : Result :=
  takeInterrupt restartUniverse s

/-- `RX_IRQ.DATA` (41_receive_state_machine.md R153). -/
def execRxIrqData (data : Byte) (s : State) : Result :=
  takeInterrupt (storeSlot data) s

/-- `RX_IRQ.NONE` (41_receive_state_machine.md R154): neither step applies; `data` is not read. -/
def execRxIrqNone (_data : Byte) (s : State) : Result :=
  takeInterrupt (fun t => t) s

/-- The whole handler as one total function of the Driver State and the snapshot, written as R155 writes
it, apart from the three cases above so that their agreement can be stated. -/
def handler (snap : Snapshot) (s : State) : State :=
  if snap.fe then { s with rxPosition := 0 }
  else
    match snap.byte with
    | none => s
    | some data =>
      if s.rxPosition < s.params.rxCapacity ∧ s.rxReady = false then
        { s with
          rxBuffer := s.rxBuffer.write s.rxPosition data
          rxPosition := s.rxPosition + 1
          rxReady := decide (s.rxPosition + 1 = s.params.rxCapacity) }
      else s

/-- The five reachable classes of `(rx_position, rx_ready)` (41_receive_state_machine.md R156). -/
inductive RxClass where
  | idle
  | filling
  | fullUnconsumed
  | fullConsumed
  | resyncBlocked
  deriving DecidableEq, Repr

/-- The class of a state; none for the unreachable pairs of 10_state.md R37. -/
def rxClass (s : State) : Option RxClass :=
  if s.rxReady then
    if s.rxPosition = 0 then some .resyncBlocked
    else if s.rxPosition = s.params.rxCapacity then some .fullUnconsumed
    else none
  else
    if s.rxPosition = 0 then some .idle
    else if s.rxPosition < s.params.rxCapacity then some .filling
    else if s.rxPosition = s.params.rxCapacity then some .fullConsumed
    else none

/-- The conditions a receive event can raise (60_exceptions.md R215): labels for reference only, stored
nowhere. `CND_CONSTRUCT` cannot arise in hardware (R219) and has no value here. -/
inductive Condition where
  | framingBreak
  | busy
  | overrun
  deriving DecidableEq, Repr

/-- The conditions an event raises (60_exceptions.md R216 to R218); a data byte can raise two. -/
def conditions (snap : Snapshot) (s : State) : List Condition :=
  if snap.fe then [.framingBreak]
  else
    match snap.byte with
    | none => []
    | some _ =>
      (if s.rxReady then [.busy] else []) ++
      (if s.rxPosition = s.params.rxCapacity then [.overrun] else [])

end Sys2Proof.Machine
end

