-- ==== Sys2Proof/Machine/Transmit.lean ====
section
/-!
DEFINITION. The transmit sequencer (42_transmit_sequencer.md R171 to R176) and `TX_STEP`, which runs the
micro-operation `tx_phase` selects (40_foreground_api.md R130). A micro-operation has no refusal of its
own that a run meets; it is reached through `TX_STEP` only (log 12).
-/

namespace Sys2Proof.Machine

/-- A pulse: one turn of a busy-wait of `n` cycles that drives the level `l` when it begins and goes to
the phase `succ` when it ends (42_transmit_sequencer.md R172 to R174). -/
def pulse (n : Nat) (l : Bool) (succ : TxPhase) (s : State) : State :=
  match busyWaitPoll n s with
  | (.armedNow, t) => t.driveTx l
  | (.waiting, t) => t
  | (.done, t) => t.setTxPhase succ

/-- `TXS_PIN_GPIO` (42_transmit_sequencer.md R171). -/
def execTxsPinGpio (s : State) : Result :=
  .next ((s.switchTxPin .gpio).setTxPhase .idleHigh)

/-- `TXS_IDLE_HIGH` (42_transmit_sequencer.md R172). -/
def execTxsIdleHigh (s : State) : Result :=
  .next (pulse s.params.tIdle true .breakLow s)

/-- `TXS_BREAK_LOW` (42_transmit_sequencer.md R173). -/
def execTxsBreakLow (s : State) : Result :=
  .next (pulse s.params.tBreak false .mabHigh s)

/-- `TXS_MAB_HIGH` (42_transmit_sequencer.md R174). -/
def execTxsMabHigh (s : State) : Result :=
  .next (pulse s.params.tMab true .pinAf s)

/-- `TXS_PIN_AF` (42_transmit_sequencer.md R175). -/
def execTxsPinAf (s : State) : Result :=
  .next (((s.switchTxPin .af).setTxIndex 0).setTxPhase .send)

/-- Load the next byte of `tx_buffer` into the UART; the last one is the return of `start_tx`
(42_transmit_sequencer.md R176, R182). -/
def sendByte (s : State) : State :=
  let t := (s.loadTdr (s.memRead .txb s.txIndex)).setTxIndex (s.txIndex + 1)
  if s.txIndex + 1 = s.capacity .txb then t.setTxPhase .idle else t

/-- `TXS_SEND` (42_transmit_sequencer.md R176). "The sequencer reads only `tx_index < TX_CAPACITY`"
(20_memory.md R63): with an index outside the space, in a state no run reaches, it is refused as every
access there is (log 9). -/
def execTxsSend (s : State) : Result :=
  if s.txe = false then .next s
  else withIndex s .txb s.txIndex (.next (sendByte s))

/-- `TX_STEP` (40_foreground_api.md R130). -/
def execTxStep (s : State) : Result :=
  whenInited s
    (match s.txPhase with
     | .idle => .refused .noTransmission
     | .pinGpio => execTxsPinGpio s
     | .idleHigh => execTxsIdleHigh s
     | .breakLow => execTxsBreakLow s
     | .mabHigh => execTxsMabHigh s
     | .pinAf => execTxsPinAf s
     | .send => execTxsSend s)

end Sys2Proof.Machine
end

