-- ==== Sys2Proof/Machine/Dispatch.lean ====
section
/-!
DEFINITION. The dispatch of the block's operations, one arm per row of opcode_table.json.
-/

namespace Sys2Proof.Machine

def exec (i : Instr) (s : State) : Host.Outcome State Fault Refusal :=
  match i with
  -- foreground operations (40_foreground_api.md)
  | .init => Sys2Proof.Machine.execInit s
  | .pktAvail => Sys2Proof.Machine.execPktAvail s
  | .getPkt => Sys2Proof.Machine.execGetPkt s
  | .getRxLen => Sys2Proof.Machine.execGetRxLen s
  | .freePkt => Sys2Proof.Machine.execFreePkt s
  | .getTxBuf => Sys2Proof.Machine.execGetTxBuf s
  | .startTx => Sys2Proof.Machine.execStartTx s
  | .txStep => Sys2Proof.Machine.execTxStep s
  | .rxbLd idx => Sys2Proof.Machine.execRxbLd idx s
  | .txbLd idx => Sys2Proof.Machine.execTxbLd idx s
  | .txbSt idx val => Sys2Proof.Machine.execTxbSt idx val s
  -- the receive handler (41_receive_state_machine.md)
  | .rxIrqBreak rxne data => Sys2Proof.Machine.execRxIrqBreak rxne data s
  | .rxIrqData data => Sys2Proof.Machine.execRxIrqData data s
  | .rxIrqNone data => Sys2Proof.Machine.execRxIrqNone data s
  -- the environment (43_timing_primitive.md, 44_uart_and_pins_boundary.md)
  | .envTick n => Sys2Proof.Machine.execEnvTick n s
  | .envTxDrain => Sys2Proof.Machine.execEnvTxDrain s
  | .envIrqEn => Sys2Proof.Machine.execEnvIrqEn s
  -- micro-operations of the transmit sequencer (42_transmit_sequencer.md)
  | .txsPinGpio => Sys2Proof.Machine.execTxsPinGpio s
  | .txsIdleHigh => Sys2Proof.Machine.execTxsIdleHigh s
  | .txsBreakLow => Sys2Proof.Machine.execTxsBreakLow s
  | .txsMabHigh => Sys2Proof.Machine.execTxsMabHigh s
  | .txsPinAf => Sys2Proof.Machine.execTxsPinAf s
  | .txsSend => Sys2Proof.Machine.execTxsSend s

end Sys2Proof.Machine
end

