-- ==== Sys2Proof/Machine/Step.lean ====
section
/-!
DEFINITION. One step of the machine: the agent the trace schedules next runs its operation. There is no
program counter (10_state.md R29); the place of a fetch is taken by the head of the trace
(30_encoding.md R90; log 3).
-/

namespace Sys2Proof.Machine

/-- One step: take the next operation word off the trace and run its operation. An invalid word is
refused (30_encoding.md R95). With an empty trace no agent moves and nothing changes (log 3). -/
def step (s : State) : Host.Outcome State Fault Refusal :=
  match fetch s with
  | none => .next s
  | some (w, t) =>
    match decode (.word w) with
    | .ok i => exec i t
    | .error _ => .refused .badEncoding

/-- `s` with a table row's bits placed so that the next step runs them. An operation word goes to the
front of the trace. A micro-operation is "not issued by words" (30_encoding.md R96): it is selected by
`tx_phase` when `TX_STEP` runs, so the phase is set, `inited` with it (before `INIT` the phase "is never
examined", 40_foreground_api.md R132), and the word of `TX_STEP` goes to the front of the trace (log 12).
Bits that select no operation are placed as a word and refused. -/
def State.withFetchWord (s : State) (nbits w : Nat) : State :=
  match decide (nbits ≤ 8), decodeTableWord nbits w, TxPhase.ofBits (BitVec.ofNat 3 w) with
  | true, some _, some p => { s with inited := true, txPhase := p, trace := 0x08000000 :: s.trace }
  | _, _, _ => { s with trace := BitVec.ofNat 32 w :: s.trace }

end Sys2Proof.Machine
end

