-- ==== Sys2Proof/Machine/Trace.lean ====
section
/-!
DEFINITION. Running a list of operations, the pseudo-operations of 30_encoding.md R98 with their
expansions, and the text syntax of a trace (30_encoding.md R97).
-/

namespace Sys2Proof.Machine

/-- Run operations in order, stopping at the first fault or refusal (92_eei_decisions.md D7: "a program is
a sequence of operation words applied in order"). -/
def execAll : List Instr → State → Result
  | [], s => .next s
  | i :: is, s =>
    match exec i s with
    | .next t => execAll is t
    | .fault r => .fault r
    | .refused r => .refused r

/-! ### Pseudo-operations (30_encoding.md R98) -/

/-- `BREAK`: `RX_IRQ 1, 1, 0x00`. -/
def breakOp : Instr := .rxIrq true true 0

/-- `BYTE b`: `RX_IRQ 0, 1, b`. -/
def byteOp (b : Byte) : Instr := .rxIrq false true b

/-- An item of the source's stream notation: the token `break`, or a byte literal. -/
inductive StreamItem where
  | breakToken
  | literal (b : Byte)
  deriving DecidableEq, Repr

/-- `FEED [e1, e2, ...]`. -/
def feed (items : List StreamItem) : List Instr :=
  items.map (fun e =>
    match e with
    | .breakToken => breakOp
    | .literal b => byteOp b)

/-- `TXB_ST` of each byte at rising indices from `i`. -/
def storesFrom : Nat → List Byte → List Instr
  | _, [] => []
  | i, b :: bs => .txbSt i b :: storesFrom (i + 1) bs

/-- `FILL_TX [b0, ..., bk]`. -/
def fillTx (bytes : List Byte) : List Instr := .getTxBuf :: storesFrom 0 bytes

/-- `READ_PKT`. -/
def readPkt (p : Params) : List Instr := .getPkt :: (List.range p.rxCapacity).map .rxbLd

/-- `WAIT n`: one complete busy-wait of `n` cycles with no interrupt. -/
def waitOp (n : Nat) : List Instr := [.txStep, .envTick n, .txStep]

/-- `n` times (`TX_STEP`, `ENV_TX_DRAIN`). -/
def sendAndDrain : Nat → List Instr
  | 0 => []
  | n + 1 => .txStep :: .envTxDrain :: sendAndDrain n

/-- `RUN_TX`: `start_tx` run to completion with no interrupt. -/
def runTx (p : Params) : List Instr :=
  [.startTx, .txStep] ++ waitOp p.tIdle ++ waitOp p.tBreak ++ waitOp p.tMab ++ [.txStep] ++
    sendAndDrain p.txCapacity

/-! ### The text syntax (30_encoding.md R97) -/

/-- The operations that stand alone on their line. -/
def aloneOps : List Instr :=
  [.init, .pktAvail, .getPkt, .getRxLen, .freePkt, .getTxBuf, .startTx, .txStep, .envTxDrain, .envIrqEn]

/-- A flag operand of `RX_IRQ`. -/
def flagOperand : Nat → Option Bool
  | 0 => some false
  | 1 => some true
  | _ => none

/-- A byte operand. -/
def byteOperand (n : Nat) : Option Byte := if n < 256 then some (BitVec.ofNat 8 n) else none

/-- The operation of a mnemonic with its operands, each within its range. -/
def assemble (mnemonic : List Char) (operands : List Nat) : Option Instr :=
  let i :=
    match operands with
    | [] => aloneOps.find? (fun (j : Instr) => j.mnemonic.toList == mnemonic)
    | [a] =>
      if mnemonic = "RXB_LD".toList then some (.rxbLd a)
      else if mnemonic = "TXB_LD".toList then some (.txbLd a)
      else if mnemonic = "ENV_TICK".toList then some (.envTick a)
      else none
    | [a, b] =>
      if mnemonic = "TXB_ST".toList then (byteOperand b).map (.txbSt a) else none
    | [a, b, c] =>
      if mnemonic = "RX_IRQ".toList then
        match flagOperand a, flagOperand b, byteOperand c with
        | some fe, some rxne, some data => some (.rxIrq fe rxne data)
        | _, _, _ => none
      else none
    | _ => none
  match i with
  | some j => if j.wellFormed then some j else none
  | none => none

/-- The value of a digit in a base up to 16. -/
def digitValue (c : Char) : Option Nat :=
  let n := c.toNat
  if 48 ≤ n ∧ n ≤ 57 then some (n - 48)
  else if 97 ≤ n ∧ n ≤ 102 then some (n - 87)
  else if 65 ≤ n ∧ n ≤ 70 then some (n - 55)
  else none

/-- The number a run of digits spells in a base. -/
def digitsValue (base : Nat) : Nat → List Char → Option Nat
  | acc, [] => some acc
  | acc, c :: cs =>
    match digitValue c with
    | some d => if d < base then digitsValue base (acc * base + d) cs else none
    | none => none

/-- A number in decimal or `0x` hexadecimal. -/
def numberOf : List Char → Option Nat
  | [] => none
  | ['0', 'x'] => none
  | '0' :: 'x' :: cs => digitsValue 16 0 cs
  | cs => digitsValue 10 0 cs

/-- The part of a line before its comment. -/
def uncommented (cs : List Char) : List Char := cs.takeWhile (fun c => c != ';')

/-- The characters without the spaces at both ends. -/
def trimmed (cs : List Char) : List Char :=
  ((cs.dropWhile (fun c => c == ' ')).reverse.dropWhile (fun c => c == ' ')).reverse

/-- The pieces between commas. -/
def splitCommas : List Char → List (List Char)
  | [] => [[]]
  | c :: cs =>
    match splitCommas cs with
    | [] => [[c]]
    | p :: ps => if c = ',' then [] :: p :: ps else (c :: p) :: ps

/-- The numbers of a comma-separated list; none if a piece is no number. -/
def numbersOf : List (List Char) → Option (List Nat)
  | [] => some []
  | p :: ps =>
    match numberOf (trimmed p), numbersOf ps with
    | some n, some ns => some (n :: ns)
    | _, _ => none

/-- The operation a line of a trace spells: a mnemonic, then its operands (30_encoding.md R97). -/
def assembleLine (line : String) : Option Instr :=
  let text := trimmed (uncommented line.toList)
  let mnemonic := text.takeWhile (fun c => c != ' ')
  let rest := trimmed (text.dropWhile (fun c => c != ' '))
  if rest = [] then assemble mnemonic []
  else
    match numbersOf (splitCommas rest) with
    | some ns => assemble mnemonic ns
    | none => none

end Sys2Proof.Machine
end

