-- ==== Sys2Proof/Machine/Line.lean ====
section
/-!
DEFINITION. The level of the transmit line, derived from `wire_log` (10_state.md R34): no operation reads
it, and claims about the wire are stated over it and the log.
-/

namespace Sys2Proof.Machine

/-- The mode an entry gives the transmit pin. -/
def WireEvent.mode? : WireEvent → Option TxPinMode
  | .mode m => some m
  | .level _ | .frame _ => none

/-- The level an entry gives the transmit pin's latch. -/
def WireEvent.level? : WireEvent → Option Bool
  | .level l => some l
  | .mode _ | .frame _ => none

/-- Whether an entry is a frame. -/
def WireEvent.isFrame : WireEvent → Bool
  | .frame _ => true
  | .mode _ | .level _ => false

/-- The mode of the last `Mode` entry. -/
def lastMode : List LogEntry → Option TxPinMode
  | [] => none
  | e :: es =>
    match lastMode es with
    | some m => some m
    | none => e.event.mode?

/-- The level of the last `Level` entry. -/
def lastLevel : List LogEntry → Option Bool
  | [] => none
  | e :: es =>
    match lastLevel es with
    | some l => some l
    | none => e.event.level?

/-- Whether the last entry of all is a frame. -/
def endsInFrame : List LogEntry → Bool
  | [] => false
  | [e] => e.event.isFrame
  | _ :: es => endsInFrame es

/-- The mode that decides the line's level: the last `Mode` entry's; before the first one the pin's own,
which `INIT` makes `AF` (10_state.md R32, R41). -/
def lineMode (s : State) : TxPinMode :=
  match lastMode s.wireLog with
  | some m => m
  | none => s.txPinMode

/-- The level a plain output drives: the last `Level` entry's; before the first one the latch's own, which
nothing specifies (10_state.md R32, 42_transmit_sequencer.md R171). -/
def latchLevel (s : State) : Bool :=
  match lastLevel s.wireLog with
  | some l => l
  | none => s.txLevel

/-- Whether a frame may be on the line: a byte waits in the UART's data register, or the last thing that
happened to the line is a frame, whose duration the spec does not model (44_uart_and_pins_boundary.md R205;
log 21). -/
def mayCarryFrame (s : State) : Bool := !s.txe || endsInFrame s.wireLog

/-- The level of the line (10_state.md R34): while the mode is `GPIO`, the last level driven; while it is
`AF`, high except during a frame, when it is one of the bits of an atomic byte, a free value (log 21). -/
def lineLevel (s : State) : Bool :=
  match lineMode s, mayCarryFrame s with
  | .gpio, _ => latchLevel s
  | .af, false => true
  | .af, true => Config.freeFrameLevel s.wireLog.length s.txIndex s.now

end Sys2Proof.Machine
end

