-- ==== Sys2Proof/Safety.lean ====
section
/-!
DEFINITION. What counts as a safe run: the invariants the rules of the spec promise of every state a run
reaches, the timing of the pulses on the wire, and how far a transmission has come on the wire.
-/

namespace Sys2Proof.Machine

/-! ### Refusals and tables the statements share -/

/-- The two refusals every foreground operation but `INIT` and `TX_STEP` has, in their order
(40_foreground_api.md R132). -/
abbrev RefusedUnlessAdmitted (i : Instr) (s : State) : Prop :=
  (s.inited = false → exec i s = .refused .notInitialised) ∧
  (s.inited = true → s.txPhase ≠ .idle → exec i s = .refused .foregroundBusy)

/-- The transition table of 41_receive_state_machine.md R156, column `RX_IRQ.BREAK`. -/
def RxClass.afterBreak : RxClass → RxClass
  | .idle => .idle
  | .filling => .idle
  | .fullUnconsumed => .resyncBlocked
  | .fullConsumed => .idle
  | .resyncBlocked => .resyncBlocked

/-- The same table, column `RX_IRQ.DATA`; `last` is whether the byte fills the buffer. -/
def RxClass.afterData (last : Bool) : RxClass → RxClass
  | .idle => if last then .fullUnconsumed else .filling
  | .filling => if last then .fullUnconsumed else .filling
  | .fullUnconsumed => .fullUnconsumed
  | .fullConsumed => .fullConsumed
  | .resyncBlocked => .resyncBlocked

/-- The same table, column `FREE_PKT`. -/
def RxClass.afterFree : RxClass → RxClass
  | .idle => .idle
  | .filling => .filling
  | .fullUnconsumed => .fullConsumed
  | .fullConsumed => .fullConsumed
  | .resyncBlocked => .idle

/-- A pulse phase's micro-operation, its length in cycles, the level it drives and its successor
(42_transmit_sequencer.md R172 to R174). -/
structure PulseRow where
  op : Instr
  phase : TxPhase
  length : Nat
  level : Bool
  succ : TxPhase
  deriving DecidableEq, Repr

/-- The three pulses of a transmission (42_transmit_sequencer.md R172 to R174). -/
def pulseRows (p : Params) : List PulseRow :=
  [⟨.txsIdleHigh, .idleHigh, p.tIdle, true, .breakLow⟩,
   ⟨.txsBreakLow, .breakLow, p.tBreak, false, .mabHigh⟩,
   ⟨.txsMabHigh, .mabHigh, p.tMab, true, .pinAf⟩]

/-! ### The invariant of a running block -/

/-- The receive side (10_state.md R22, R37; 41_receive_state_machine.md R159 (e)). -/
abbrev RxInv (s : State) : Prop :=
  s.rxPosition ≤ s.params.rxCapacity ∧
  (s.rxReady = true → s.rxPosition = 0 ∨ s.rxPosition = s.params.rxCapacity)

/-- A wait is in progress only in the three pulse phases (10_state.md R27). -/
def isPulsePhase : TxPhase → Bool
  | .idleHigh | .breakLow | .mabHigh => true
  | .idle | .pinGpio | .pinAf | .send => false

/-- The phases in which the transmit pin is a plain digital output: from `TXS_PIN_GPIO` to `TXS_PIN_AF`
(42_transmit_sequencer.md R170). -/
def isGpioPhase : TxPhase → Bool
  | .idleHigh | .breakLow | .mabHigh | .pinAf => true
  | .idle | .pinGpio | .send => false

/-- The transmit side: `tx_index` stays in its range (10_state.md R26), a wait is armed only in a pulse
phase, the pin is `GPIO` exactly between `TXS_PIN_GPIO` and `TXS_PIN_AF`, and before `SEND` the UART's
data register is empty (44_uart_and_pins_boundary.md R205). -/
abbrev TxInv (s : State) : Prop :=
  s.txIndex ≤ s.params.txCapacity ∧
  (s.txPhase = .send → s.txIndex < s.params.txCapacity) ∧
  s.waitT0 < modulus s.params ∧
  (s.waitArmed = true → isPulsePhase s.txPhase = true) ∧
  (s.txPinMode = .gpio ↔ isGpioPhase s.txPhase = true) ∧
  (s.txe = false → s.txPhase = .idle ∨ s.txPhase = .send)

/-- The settings `INIT` makes and nothing changes: the receive pin, the direction pin held low, the serial
format (10_state.md R31, R32; 42_transmit_sequencer.md R183). -/
abbrev SetupInv (s : State) : Prop :=
  s.rxPinMode = .inputPulled ∧ s.dirPinMode = .output ∧ s.dirLevel = false ∧
  s.uartCfg = ⟨250000, 8, 2, .none, .none, true⟩

/-- The buffers are in canonical form and list no index outside their space (20_memory.md R60, R63). -/
abbrev BufferInv (s : State) : Prop :=
  s.rxBuffer.wf = true ∧ s.rxBuffer.within s.params.rxCapacity = true ∧
  s.txBuffer.wf = true ∧ s.txBuffer.within s.params.txCapacity = true

/-- The invariant of the block over a legal parameter set. Before `INIT` only the counter's range, the
buffers' form and the empty log are asked (10_state.md R40). -/
abbrev BlockInv (s : State) : Prop :=
  s.params.Legal ∧ s.cyc < modulus s.params ∧ BufferInv s ∧
  (s.inited = false → s.wireLog = []) ∧
  (s.inited = true → RxInv s ∧ TxInv s ∧ SetupInv s)

/-! ### The pulses on the wire (42_transmit_sequencer.md R179) -/

/-- Two neighbouring entries of `wire_log` are in time order, and a pulse between them is at least as long
as its parameter. -/
def gapOk (p : Params) (a b : LogEntry) : Bool :=
  match a.event, b.event with
  | .level true, .level false => decide (a.now + p.tIdle ≤ b.now)
  | .level false, .level true => decide (a.now + p.tBreak ≤ b.now)
  | .level true, .mode .af => decide (a.now + p.tMab ≤ b.now)
  | _, _ => decide (a.now ≤ b.now)

/-- Every pulse of the log is long enough. -/
def pulsesOk (p : Params) : List LogEntry → Bool
  | [] => true
  | [_] => true
  | a :: b :: es => gapOk p a b && pulsesOk p (b :: es)

/-- The last thing the block did to the line. -/
def lastEntry (s : State) : Option LogEntry := s.wireLog.getLast?

/-- The last entry is the level `l`, driven when the armed wait began: the cycles elapsed in the wait are
the ticks since, wrapped (43_timing_primitive.md R192). -/
def pulseRunning (s : State) (l : Bool) : Prop :=
  match lastEntry s with
  | some e => e.event = .level l ∧ e.now ≤ s.now ∧ s.elapsed = (s.now - e.now) % modulus s.params
  | none => False

/-- The last entry is the level `l`, driven at least `n` ticks ago. -/
def pulseOver (s : State) (l : Bool) (n : Nat) : Prop :=
  match lastEntry s with
  | some e => e.event = .level l ∧ e.now + n ≤ s.now
  | none => False

/-- The last entry is no level, and is not in the future. -/
def noPulse (s : State) : Prop :=
  match lastEntry s with
  | some e => e.event.level? = none ∧ e.now ≤ s.now
  | none => True

/-- What the log's last entry says in each phase of the sequencer, by whether a wait is armed. -/
def phaseOnWire (s : State) : Prop :=
  match s.txPhase, s.waitArmed with
  | .idleHigh, false => noPulse s
  | .idleHigh, true => pulseRunning s true
  | .breakLow, false => pulseOver s true s.params.tIdle
  | .breakLow, true => pulseRunning s false
  | .mabHigh, false => pulseOver s false s.params.tBreak
  | .mabHigh, true => pulseRunning s true
  | .pinAf, _ => pulseOver s true s.params.tMab
  | .idle, _ | .pinGpio, _ | .send, _ => noPulse s

/-- The timing invariant: every pulse logged so far is long enough, and the log agrees with the phase. -/
abbrev PulseInv (s : State) : Prop :=
  pulsesOk s.params s.wireLog = true ∧ (s.inited = true → phaseOnWire s)

/-! ### How far a transmission has come on the wire (42_transmit_sequencer.md R179) -/

/-- The frames of the first `n` bytes of a buffer's contents, in index order. -/
def framesOf (bytes : Nat → Byte) (n : Nat) : List WireEvent :=
  (List.range n).map (fun i => .frame (bytes i))

/-- The entries that precede the first frame: pin taken, idle high, break, mark, pin given back. -/
def preamble : List WireEvent :=
  [.mode .gpio, .level true, .level false, .level true, .mode .af]

/-- How many bytes have been handed to the UART and sent: all those loaded but the one in `tdr`. -/
def framesSent (s : State) : Nat :=
  match s.txe with
  | true => s.txIndex
  | false => s.txIndex - 1

/-- The entries a transmission of `bytes` has appended to `wire_log` when it is in the state `s`. -/
def wireSoFar (bytes : Nat → Byte) (s : State) : List WireEvent :=
  match s.txPhase, s.waitArmed with
  | .pinGpio, _ => []
  | .idleHigh, false => preamble.take 1
  | .idleHigh, true | .breakLow, false => preamble.take 2
  | .breakLow, true | .mabHigh, false => preamble.take 3
  | .mabHigh, true | .pinAf, _ => preamble.take 4
  | .send, _ | .idle, _ => preamble ++ framesOf bytes (framesSent s)

/-- The transmission of `bytes` that began when `wire_log` held the events `before` is in progress, with
`tx_buffer` still holding the bytes, or has returned with its last byte possibly still in `tdr`
(42_transmit_sequencer.md R182). -/
abbrev Transmitting (before : List WireEvent) (bytes : Nat → Byte) (s : State) : Prop :=
  s.wireLog.map LogEntry.event = before ++ wireSoFar bytes s ∧
  (s.txPhase ≠ .idle → ∀ i, i < s.params.txCapacity → s.memRead .txb i = bytes i) ∧
  (s.txPhase = .idle → s.txIndex = s.params.txCapacity) ∧
  (s.txe = false → 0 < s.txIndex ∧ s.tdr = bytes (s.txIndex - 1))

/-! ### The line (10_state.md R34) -/

/-- The log tells the pin: the last `Mode` and the last `Level` entry are the pin's mode and latch. -/
abbrev LogTellsPin (s : State) : Prop :=
  lineMode s = s.txPinMode ∧ latchLevel s = s.txLevel

end Sys2Proof.Machine
end

