-- ==== Sys2Proof/Certificates/Slice0/Obligations.lean ====
section
/-!
DEFINITION. The statements for the provers. Each docstring names the rule of spec/ it formalises.
A statement about the next state of one operation gives that state whole, as an update of the old one,
so every field it does not name is unchanged, the model's own `params`, `trace`, `cfgInput`, `ret` and
`freeCount` (log 1, 3, 13, 4, 7) among them.
-/

open Sys2Proof Sys2Proof.Machine

/-! ### Encoding (30_encoding.md) -/

/-- R91 to R93, R96: the code of every well-formed operation decodes to that operation. -/
def Obligations.DecodeInvertsEncode : Prop :=
  ∀ i : Instr, i.wellFormed = true → decode (encode i) = .ok i

/-- R90, R95: no bit of a valid code is dropped: what it decodes to encodes back to it, and is
well formed. -/
def Obligations.EncodeInvertsDecode : Prop :=
  ∀ (c : Code) (i : Instr), decode c = .ok i → encode i = c ∧ i.wellFormed = true

/-- R93: the decoder, written from the formats, gives a row's operation exactly on the words the row's
match and mask select, and rejects exactly the words no row selects; the opcode of an operation's word
tells its agent (R94). -/
def Obligations.DecoderAgreesWithOpcodeMap : Prop :=
  ∀ w : OpWord,
    (∀ r ∈ opcodeRows,
      r.matchesWord w = true ↔ ∃ i, decode (.word w) = .ok i ∧ i.mnemonic = r.mnemonic) ∧
    ((∀ r ∈ opcodeRows, r.matchesWord w = false) ↔ ∃ e, decode (.word w) = .error e) ∧
    ∀ i, decode (.word w) = .ok i → agentOfOpcode (opcOf w) = some i.agent

/-- R91 to R93: the worked encodings the spec derives from them (R100), both ways, and the two invalid
words. -/
def Obligations.WorkedEncodings : Prop :=
  decode (.word 0x120002C8) = .ok (.txbSt 2 200) ∧ encode (.txbSt 2 200) = .word 0x120002C8 ∧
  decode (.word 0x10000600) = .ok (.rxbLd 6) ∧ encode (.rxbLd 6) = .word 0x10000600 ∧
  decode (.word 0x80000160) = .ok (.rxIrq false true 0x60) ∧
  decode (.word 0x80000300) = .ok (.rxIrq true true 0) ∧
  decode (.word 0x80000200) = .ok (.rxIrq true false 0) ∧
  encode (.rxIrq false true 0x60) = .word 0x80000160 ∧
  encode (.rxIrq true true 0) = .word 0x80000300 ∧
  encode (.rxIrq true false 0) = .word 0x80000200 ∧
  decode (.word 0xE00003E8) = .ok (.envTick 1000) ∧ encode (.envTick 1000) = .word 0xE00003E8 ∧
  decode (.word 0x120200FF) = .ok (.txbSt 512 255) ∧ encode (.txbSt 512 255) = .word 0x120200FF ∧
  decode (.word 0x12040000) = .error .reservedBits ∧
  decode (.word 0x09000000) = .error .unassignedOpcode

/-! ### The step -/

/-- R90: a step runs the operation its next word spells, at the state with that word taken off the
trace. With no word left nothing changes, which is the model's choice (log 3). -/
def Obligations.StepRunsDecodedInstruction : Prop :=
  ∀ s : State,
    (∀ w ws i, s.trace = w :: ws → decode (.word w) = .ok i →
      step s = exec i { s with trace := ws }) ∧
    (s.trace = [] → step s = .next s)

/-- R95: a word that is no row of R93 is refused with `BadEncoding`; every other word spells an
operation. -/
def Obligations.InvalidWordIsRefused : Prop :=
  ∀ (s : State) (w : OpWord) (ws : List OpWord), s.trace = w :: ws →
    ((∀ r ∈ opcodeRows, r.matchesWord w = false) → step s = .refused .badEncoding) ∧
    ((∃ r ∈ opcodeRows, r.matchesWord w = true) → ∃ i, decode (.word w) = .ok i)

/-! ### Power-on and `INIT` -/

/-- R40: what is specified of the power-on state. -/
def Obligations.PowerOnState : Prop :=
  State.reset.inited = false ∧ State.reset.irqEnabled = false ∧ State.reset.now = 0 ∧
  State.reset.wireLog = []

/-- The power-on state meets the invariants of Safety.lean. It rests on the model's reset values and
parameters (log 1, 2, 14). -/
def Obligations.ResetMeetsInvariants : Prop :=
  BlockInv State.reset ∧ PulseInv State.reset ∧ LogTellsPin State.reset

/-- R41: the state after `INIT`. The level of the transmit latch, the data register and `wait_t0` are
unspecified: the statement holds for some value of each. That `wire_log` is unchanged is R41's and R35's
word, where R120's pseudocode logs an entry: a deduction of the model (log 6). The fields `cfgInput` (the
operand, log 13), `ret` (what is returned, log 4) and `freeCount` (log 7) are the model's own. A second
`INIT` is refused (R120). -/
def Obligations.InitConstructsDriver : Prop :=
  ∀ s : State,
    (s.inited = false →
      ∃ (level : Bool) (b : Byte) (t0 : Nat), t0 < 2 ^ s.params.cycWidth ∧
        exec .init s = .next
          { s with
            cfg := s.cfgInput
            rxBuffer := []
            rxPosition := 0
            rxReady := false
            txBuffer := []
            rxPinMode := .inputPulled
            txPinMode := .af
            dirPinMode := .output
            dirLevel := false
            uartCfg := ⟨250000, 8, 2, .none, .none, true⟩
            txe := true
            txPhase := .idle
            txIndex := 0
            waitArmed := false
            inited := true
            txLevel := level
            tdr := b
            waitT0 := t0
            freeCount := s.freeCount + 1
            ret := .handle }) ∧
    (s.inited = true → exec .init s = .refused .alreadyInitialised) ∧
    encode .init = .word 0x01000000

/-! ### Foreground operations (40_foreground_api.md) -/

/-- R121: `PKT_AVAIL` returns `rx_ready` and changes nothing else. The field `ret`, which holds what an
operation returned, is the model's (log 4), here and below. -/
def Obligations.PktAvailReturnsRxReady : Prop :=
  ∀ s : State, RefusedUnlessAdmitted .pktAvail s ∧
    (s.inited = true → s.txPhase = .idle →
      exec .pktAvail s = .next { s with ret := .bool s.rxReady }) ∧
    encode .pktAvail = .word 0x02000000

/-- R122: `GET_PKT` returns the view and the fixed capacity, or `(NULL, 0)` when not ready. -/
def Obligations.GetPktReturnsViewOrNull : Prop :=
  ∀ s : State, RefusedUnlessAdmitted .getPkt s ∧
    (s.inited = true → s.txPhase = .idle →
      (s.rxReady = true →
        exec .getPkt s = .next { s with ret := .packet .rxb s.params.rxCapacity }) ∧
      (s.rxReady = false → exec .getPkt s = .next { s with ret := .packet .null 0 })) ∧
    encode .getPkt = .word 0x03000000

/-- R123: `GET_RX_LEN` returns `RX_CAPACITY`, whether or not a packet is ready. -/
def Obligations.GetRxLenReturnsCapacity : Prop :=
  ∀ s : State, RefusedUnlessAdmitted .getRxLen s ∧
    (s.inited = true → s.txPhase = .idle →
      exec .getRxLen s = .next { s with ret := .length s.params.rxCapacity }) ∧
    encode .getRxLen = .word 0x04000000

/-- R124: `RXB_LD` returns the byte at the index; it is refused first while the interrupt context owns
the buffer, then for an index outside it. -/
def Obligations.RxbLdReadsOwnedBuffer : Prop :=
  ∀ (s : State) (idx : Nat), RefusedUnlessAdmitted (.rxbLd idx) s ∧
    (s.inited = true → s.txPhase = .idle →
      (s.rxReady = false → exec (.rxbLd idx) s = .refused .rxBufferNotOwned) ∧
      (s.rxReady = true → s.params.rxCapacity ≤ idx →
        exec (.rxbLd idx) s = .refused .indexOutOfRange) ∧
      (s.rxReady = true → idx < s.params.rxCapacity →
        exec (.rxbLd idx) s = .next { s with ret := .byte (s.memRead .rxb idx) })) ∧
    encode (.rxbLd idx) = .word (BitVec.ofNat 32 (0x10000000 + idx * 0x100))

/-- R125: `FREE_PKT` clears `rx_ready`; `rx_position` and `rx_buffer` stay. -/
def Obligations.FreePktClearsRxReady : Prop :=
  ∀ s : State, RefusedUnlessAdmitted .freePkt s ∧
    (s.inited = true → s.txPhase = .idle →
      exec .freePkt s = .next { s with rxReady := false }) ∧
    encode .freePkt = .word 0x05000000

/-- R126: `GET_TX_BUF` returns the view `TXB`. -/
def Obligations.GetTxBufReturnsView : Prop :=
  ∀ s : State, RefusedUnlessAdmitted .getTxBuf s ∧
    (s.inited = true → s.txPhase = .idle →
      exec .getTxBuf s = .next { s with ret := .view .txb }) ∧
    encode .getTxBuf = .word 0x06000000

/-- R127: `TXB_LD` returns the byte at the index, or refuses an index outside the buffer. -/
def Obligations.TxbLdReadsBuffer : Prop :=
  ∀ (s : State) (idx : Nat), RefusedUnlessAdmitted (.txbLd idx) s ∧
    (s.inited = true → s.txPhase = .idle →
      (s.params.txCapacity ≤ idx → exec (.txbLd idx) s = .refused .indexOutOfRange) ∧
      (idx < s.params.txCapacity →
        exec (.txbLd idx) s = .next { s with ret := .byte (s.memRead .txb idx) })) ∧
    encode (.txbLd idx) = .word (BitVec.ofNat 32 (0x11000000 + idx * 0x100))

/-- R128: `TXB_ST` writes one byte of `tx_buffer`; every other byte reads as before and nothing else
changes. -/
def Obligations.TxbStWritesOneByte : Prop :=
  ∀ (s : State) (idx : Nat) (val : Byte), RefusedUnlessAdmitted (.txbSt idx val) s ∧
    (s.inited = true → s.txPhase = .idle →
      (s.params.txCapacity ≤ idx → exec (.txbSt idx val) s = .refused .indexOutOfRange) ∧
      (idx < s.params.txCapacity →
        ∃ t, exec (.txbSt idx val) s = .next t ∧ t = { s with txBuffer := t.txBuffer } ∧
          (s.txBuffer.wf = true → t.memRead .txb idx = val) ∧
          ∀ j, j ≠ idx → t.memRead .txb j = s.memRead .txb j)) ∧
    encode (.txbSt idx val) = .word (BitVec.ofNat 32 (0x12000000 + idx * 0x100 + val.toNat))

/-- R129: `START_TX` enters the sequence, or is refused while the UART holds a byte. -/
def Obligations.StartTxEntersSequence : Prop :=
  ∀ s : State, RefusedUnlessAdmitted .startTx s ∧
    (s.inited = true → s.txPhase = .idle →
      (s.txe = false → exec .startTx s = .refused .transmitterNotDrained) ∧
      (s.txe = true → exec .startTx s = .next { s with txPhase := .pinGpio })) ∧
    encode .startTx = .word 0x07000000

/-- R125, R121 (90_conflicts.md C10): `FREE_PKT` and then `PKT_AVAIL`, with nothing between, returns
false. -/
def Obligations.FreeThenAvailableIsFalse : Prop :=
  ∀ s : State, s.inited = true → s.txPhase = .idle →
    execAll [.freePkt, .pktAvail] s = .next { s with rxReady := false, ret := .bool false }

/-! ### The sequencer (42_transmit_sequencer.md) -/

/-- R96, R130: the micro-operations are not issued by words; `TX_STEP` runs the one whose code `tx_phase`
holds, by the table; in `IDLE` it is refused; 111 encodes no phase and selects nothing. -/
def Obligations.TxStepRunsSelectedMicroOp : Prop :=
  (∀ (w : OpWord) (i : Instr), decode (.word w) = .ok i → i.isMicroOp = false) ∧
  (∀ (s : State) (m : Instr), s.inited = true → decode (.phase s.txPhase.bits) = .ok m →
    exec .txStep s = exec m s) ∧
  (∀ s : State, s.inited = true → s.txPhase = .idle → exec .txStep s = .refused .noTransmission) ∧
  (∀ s : State, s.inited = false → exec .txStep s = .refused .notInitialised) ∧
  ([TxPhase.idle, .pinGpio, .idleHigh, .breakLow, .mabHigh, .pinAf, .send].map TxPhase.bits =
    [0b000, 0b001, 0b010, 0b011, 0b100, 0b101, 0b110]) ∧
  decode (.phase 0b001) = .ok .txsPinGpio ∧ decode (.phase 0b010) = .ok .txsIdleHigh ∧
  decode (.phase 0b011) = .ok .txsBreakLow ∧ decode (.phase 0b100) = .ok .txsMabHigh ∧
  decode (.phase 0b101) = .ok .txsPinAf ∧ decode (.phase 0b110) = .ok .txsSend ∧
  decode (.phase 0b000) = .error .noMicroOp ∧ decode (.phase 0b111) = .error .reservedPhase ∧
  (∀ p : TxPhase, p.bits ≠ 0b111) ∧ encode .txStep = .word 0x08000000

/-- R171: `TXS_PIN_GPIO`, also as `TX_STEP` runs it in its phase (R130). That the bare micro-operation has
no check of its own, so that it has this effect in every state, is the model's choice (log 12). -/
def Obligations.PinGpioTakesThePin : Prop :=
  ∀ s t : State,
    t = { s with
      txPinMode := .gpio
      wireLog := s.wireLog ++ [⟨s.now, .mode .gpio⟩]
      txPhase := .idleHigh } →
    exec .txsPinGpio s = .next t ∧
    (s.inited = true → s.txPhase = .pinGpio → exec .txStep s = .next t)

/-- R172 to R174, R192: the three pulses, also as `TX_STEP` runs them. The visit that arms the wait
drives the level; while fewer cycles than the pulse's length have passed, counted with wrap-around,
nothing changes; then the wait ends and the phase goes on. -/
def Obligations.PulsesDriveAndWait : Prop :=
  ∀ (s : State) (r : PulseRow), r ∈ pulseRows s.params → s.inited = true → s.txPhase = r.phase →
    ∀ i : Instr, i = r.op ∨ i = .txStep →
      (s.waitArmed = false →
        exec i s = .next
          { s with
            waitT0 := s.cyc
            waitArmed := true
            txLevel := r.level
            wireLog := s.wireLog ++ [⟨s.now, .level r.level⟩] }) ∧
      (s.waitArmed = true →
        ∀ k, k < 2 ^ s.params.cycWidth → s.cyc = (s.waitT0 + k) % 2 ^ s.params.cycWidth →
          (k < r.length → exec i s = .next s) ∧
          (r.length ≤ k → exec i s = .next { s with waitArmed := false, txPhase := r.succ }))

/-- R175: `TXS_PIN_AF`, also as `TX_STEP` runs it in its phase (R130). That the bare micro-operation has no
check of its own, so that it has this effect in every state, is the model's choice (log 12). -/
def Obligations.PinAfGivesThePinBack : Prop :=
  ∀ s t : State,
    t = { s with
      txPinMode := .af
      wireLog := s.wireLog ++ [⟨s.now, .mode .af⟩]
      txIndex := 0
      txPhase := .send } →
    exec .txsPinAf s = .next t ∧
    (s.inited = true → s.txPhase = .pinAf → exec .txStep s = .next t)

/-- R176, R182: `TXS_SEND` in its phase, also as `TX_STEP` runs it: it waits for `txe`, loads the next
byte, and returns to `IDLE` with the last one. An index outside the buffer, which no run reaches, is
refused: the model's choice (log 9). -/
def Obligations.SendLoadsOneByte : Prop :=
  ∀ s : State, s.inited = true → s.txPhase = .send → ∀ i : Instr, i = .txsSend ∨ i = .txStep →
    (s.txe = false → exec i s = .next s) ∧
    (s.txe = true → s.txIndex < s.params.txCapacity →
      exec i s = .next
        { s with
          tdr := s.memRead .txb s.txIndex
          txe := false
          txIndex := s.txIndex + 1
          txPhase := if s.txIndex + 1 = s.params.txCapacity then .idle else .send }) ∧
    (s.txe = true → s.params.txCapacity ≤ s.txIndex → exec i s = .refused .indexOutOfRange)

/-! ### The environment (43_timing_primitive.md, 44_uart_and_pins_boundary.md) -/

/-- R191: `ENV_TICK` in every state, before `INIT` included. -/
def Obligations.TickAdvancesTime : Prop :=
  ∀ (s : State) (n : Nat),
    exec (.envTick n) s =
      .next { s with cyc := (s.cyc + n) % 2 ^ s.params.cycWidth, now := s.now + n }

/-- R205: `ENV_TX_DRAIN`: the byte goes out as a frame and `txe` is set; with `txe` set there is nothing
to drain, and the model's "no step" is a next state in which nothing changes (log 5). -/
def Obligations.DrainSendsTheFrame : Prop :=
  ∀ s : State,
    (s.inited = false → exec .envTxDrain s = .refused .notInitialised) ∧
    (s.inited = true →
      (s.txe = true → exec .envTxDrain s = .next s) ∧
      (s.txe = false →
        exec .envTxDrain s = .next
          { s with wireLog := s.wireLog ++ [⟨s.now, .frame s.tdr⟩], txe := true }))

/-- R206: `ENV_IRQ_EN` in every state; done before `INIT`, it makes the first event refused. -/
def Obligations.IrqEnableSetsTheLine : Prop :=
  encode .envIrqEn = .word 0xE2000000 ∧
  ∀ s : State, exec .envIrqEn s = .next { s with irqEnabled := true } ∧
    (s.inited = false → ∀ fe rxne data,
      execAll [.envIrqEn, .rxIrq fe rxne data] s = .refused .notInitialised)

/-! ### The receive handler (41_receive_state_machine.md) -/

/-- R150, R223: with the line disabled an event is lost and nothing changes, before or after `INIT` (the
model's "no step" is a next state, log 5); with it enabled before `INIT` the invocation is refused. -/
def Obligations.HandlerAdmission : Prop :=
  ∀ (s : State) (fe rxne : Bool) (data : Byte),
    (s.irqEnabled = false → exec (.rxIrq fe rxne data) s = .next s) ∧
    (s.irqEnabled = true → s.inited = false →
      exec (.rxIrq fe rxne data) s = .refused .notInitialised)

/-- R152: a break resets `rx_position`, whatever `rx_ready` is, and changes nothing else. -/
def Obligations.BreakResetsPosition : Prop :=
  ∀ (s : State) (rxne : Bool) (data : Byte), s.irqEnabled = true → s.inited = true →
    exec (.rxIrqBreak rxne data) s = .next { s with rxPosition := 0 } ∧
    encode (.rxIrqBreak rxne data) =
      .word (BitVec.ofNat 32 (0x80000200 + rxne.toNat * 0x100 + data.toNat))

/-- R153: a data byte is stored at `rx_position` while there is room and `rx_ready` is false, the last
slot setting `rx_ready`; every other byte of the buffer reads as before. Otherwise it is dropped and
nothing changes. -/
def Obligations.DataByteStoredOrDropped : Prop :=
  ∀ (s : State) (data : Byte), s.irqEnabled = true → s.inited = true →
    (s.rxPosition < s.params.rxCapacity → s.rxReady = false →
      ∃ t, exec (.rxIrqData data) s = .next t ∧
        t = { s with
          rxBuffer := t.rxBuffer
          rxPosition := s.rxPosition + 1
          rxReady := decide (s.rxPosition + 1 = s.params.rxCapacity) } ∧
        (s.rxBuffer.wf = true → t.memRead .rxb s.rxPosition = data) ∧
        ∀ j, j ≠ s.rxPosition → t.memRead .rxb j = s.memRead .rxb j) ∧
    (s.params.rxCapacity ≤ s.rxPosition ∨ s.rxReady = true → exec (.rxIrqData data) s = .next s) ∧
    encode (.rxIrqData data) = .word (BitVec.ofNat 32 (0x80000100 + data.toNat))

/-- R154, which the spec derives from R152 and R153: with neither flag set nothing changes. -/
def Obligations.NoFlagsChangesNothing : Prop :=
  ∀ (s : State) (data : Byte), s.irqEnabled = true → s.inited = true →
    exec (.rxIrqNone data) s = .next s ∧
    encode (.rxIrqNone data) = .word (BitVec.ofNat 32 (0x80000000 + data.toNat))

/-- R155: an invocation is the whole handler, as one total function of the snapshot. -/
def Obligations.HandlerIsOneFunction : Prop :=
  ∀ (s : State) (fe rxne : Bool) (data : Byte), s.irqEnabled = true → s.inited = true →
    exec (.rxIrq fe rxne data) s = .next (handler (Snapshot.sample fe rxne data) s)

/-- R156, which the spec derives from R152 to R154 and R125: the transition table over the five receive
classes; every running state has a class (R37). -/
def Obligations.ReceiveTransitionTable : Prop :=
  ∀ s : State, BlockInv s → s.inited = true →
    ∃ c, rxClass s = some c ∧
      (s.irqEnabled = true →
        (∀ rxne data, ∃ t, exec (.rxIrqBreak rxne data) s = .next t ∧ rxClass t = some c.afterBreak) ∧
        (∀ data, ∃ t, exec (.rxIrqData data) s = .next t ∧
          rxClass t = some (c.afterData (decide (s.rxPosition + 1 = s.params.rxCapacity)))) ∧
        (∀ data, ∃ t, exec (.rxIrqNone data) s = .next t ∧ rxClass t = some c)) ∧
      (s.txPhase = .idle → ∃ t, exec .freePkt s = .next t ∧ rxClass t = some c.afterFree)

/-- R215 to R218: the error conditions are ordinary next states: a break resets `rx_position`, a busy
buffer or an overrun drops the byte, and nothing is recorded. -/
def Obligations.ErrorConditionsAreNextStates : Prop :=
  ∀ (s : State) (fe rxne : Bool) (data : Byte), s.irqEnabled = true → s.inited = true →
    let raised := conditions (Snapshot.sample fe rxne data) s
    (fe = true ↔ Condition.framingBreak ∈ raised) ∧
    (fe = false → rxne = true → (s.rxReady = true ↔ Condition.busy ∈ raised)) ∧
    (fe = false → rxne = true →
      (s.rxPosition = s.params.rxCapacity ↔ Condition.overrun ∈ raised)) ∧
    (Condition.framingBreak ∈ raised →
      exec (.rxIrq fe rxne data) s = .next { s with rxPosition := 0 }) ∧
    (Condition.busy ∈ raised ∨ Condition.overrun ∈ raised →
      exec (.rxIrq fe rxne data) s = .next s)

/-- R23: over every operation: while `rx_ready` is true `rx_buffer` does not change and `rx_position` does
not advance; `rx_ready` becomes true only by the data byte that fills the buffer, and false only by
`FREE_PKT`; while it is false the foreground's read is no step. -/
def Obligations.BufferOwnership : Prop :=
  ∀ (i : Instr) (s t : State), s.inited = true → exec i s = .next t →
    (s.rxReady = true → t.rxBuffer = s.rxBuffer ∧ t.rxPosition ≤ s.rxPosition) ∧
    (s.rxReady = false → t.rxReady = true →
      s.rxPosition + 1 = s.params.rxCapacity ∧ ∃ data, i = .rxIrqData data) ∧
    (s.rxReady = true → t.rxReady = false → i = .freePkt) ∧
    (s.rxReady = false → ∀ idx, i ≠ .rxbLd idx)

/-- R159 (c): while a packet is unconsumed no sequence of receive events changes `rx_buffer` or
`rx_ready`, or anything but `rx_position`. -/
def Obligations.UnconsumedPacketIsStable : Prop :=
  ∀ (events : List (Bool × Bool × Byte)) (s : State),
    s.irqEnabled = true → s.inited = true → s.rxReady = true →
    ∃ p, execAll (events.map (fun e => Instr.rxIrq e.1 e.2.1 e.2.2)) s =
      .next { s with rxPosition := p }

/-- R159 (b), with `rx_ready` false at the break (90_conflicts.md C11): after a break, `capacity` data
bytes complete a packet, precisely with the last one, and `rx_buffer` holds them in arrival order. That no
event is missed on the way is the model's deduction (log 8). -/
def Obligations.CapacityBytesCompletePacket : Prop :=
  ∀ (s : State) (bytes : List Byte), BlockInv s → s.irqEnabled = true → s.inited = true →
    s.rxReady = false → bytes.length = s.params.rxCapacity →
    (∃ t, execAll (feed (.breakToken :: bytes.map .literal)) s = .next t ∧
      t.rxReady = true ∧ t.rxPosition = s.params.rxCapacity ∧
      (∀ i b, bytes[i]? = some b → t.memRead .rxb i = b)) ∧
    (∀ k, k < s.params.rxCapacity →
      ∃ u, execAll (feed (.breakToken :: (bytes.take k).map .literal)) s = .next u ∧
        u.rxReady = false ∧ u.rxPosition = k)

/-! ### Who writes what (10_state.md R35, 60_exceptions.md R228) -/

/-- R228: the interrupt context changes nothing but `rx_buffer`, `rx_position` and `rx_ready`, and never
clears `rx_ready`. The unchanged fields include the model's own (log 1, 3, 4, 7, 13). -/
def Obligations.InterruptContextFrame : Prop :=
  ∀ (i : Instr) (s t : State), i.agent = .interrupt → exec i s = .next t →
    t = { s with rxBuffer := t.rxBuffer, rxPosition := t.rxPosition, rxReady := t.rxReady } ∧
    (s.rxReady = true → t.rxReady = true)

/-- R228: the foreground context, once initialised, changes neither the receive buffer nor its position,
never sets `rx_ready`, and touches neither the counter nor the interrupt line. That it leaves the trace alone
is about the model's own field (log 3). -/
def Obligations.ForegroundFrame : Prop :=
  ∀ (i : Instr) (s t : State), i.agent = .foreground → s.inited = true → exec i s = .next t →
    t.rxBuffer = s.rxBuffer ∧ t.rxPosition = s.rxPosition ∧
    (t.rxReady = true → s.rxReady = true) ∧
    t.cyc = s.cyc ∧ t.now = s.now ∧ t.irqEnabled = s.irqEnabled ∧ t.trace = s.trace

/-- R35: the environment changes nothing but time, `txe`, `wire_log` and the interrupt line. The unchanged
fields include the model's own (log 1, 3, 4, 7, 13). -/
def Obligations.EnvironmentFrame : Prop :=
  ∀ (i : Instr) (s t : State), i.agent = .environment → exec i s = .next t →
    t = { s with
      cyc := t.cyc, now := t.now, txe := t.txe, wireLog := t.wireLog, irqEnabled := t.irqEnabled }

/-- R35: the access table, over every operation: which operations change each piece of state. `wire_log`
is written by the sequencer (R171 to R175) and by `ENV_TX_DRAIN` (R205); that `INIT` is none of its writers
is the model's deduction (log 6). The parameters (log 1), the trace (log 3) and the presented configuration
(log 13), which are the model's, are changed by none. -/
def Obligations.OnlyTheseOperationsWrite : Prop :=
  ∀ (i : Instr) (s t : State), exec i s = .next t →
    (t.cfg ≠ s.cfg ∨ t.uartCfg ≠ s.uartCfg ∨ t.rxPinMode ≠ s.rxPinMode ∨
      t.dirPinMode ≠ s.dirPinMode ∨ t.dirLevel ≠ s.dirLevel ∨ t.inited ≠ s.inited → i = .init) ∧
    (t.rxBuffer ≠ s.rxBuffer → i = .init ∨ ∃ data, i = .rxIrqData data) ∧
    (t.rxPosition ≠ s.rxPosition →
      i = .init ∨ (∃ data, i = .rxIrqData data) ∨ ∃ rxne data, i = .rxIrqBreak rxne data) ∧
    (t.rxReady ≠ s.rxReady → i = .init ∨ i = .freePkt ∨ ∃ data, i = .rxIrqData data) ∧
    (t.txBuffer ≠ s.txBuffer → i = .init ∨ ∃ idx val, i = .txbSt idx val) ∧
    (t.txPhase ≠ s.txPhase → i = .init ∨ i = .startTx ∨ i = .txStep ∨ i.isMicroOp = true) ∧
    (t.txIndex ≠ s.txIndex → i = .init ∨ i = .txStep ∨ i = .txsPinAf ∨ i = .txsSend) ∧
    (t.waitArmed ≠ s.waitArmed ∨ t.waitT0 ≠ s.waitT0 →
      i = .init ∨ i = .txStep ∨ i = .txsIdleHigh ∨ i = .txsBreakLow ∨ i = .txsMabHigh) ∧
    (t.irqEnabled ≠ s.irqEnabled → i = .envIrqEn) ∧
    (t.txe ≠ s.txe → i = .init ∨ i = .txStep ∨ i = .txsSend ∨ i = .envTxDrain) ∧
    (t.tdr ≠ s.tdr → i = .init ∨ i = .txStep ∨ i = .txsSend) ∧
    (t.txPinMode ≠ s.txPinMode → i = .init ∨ i = .txStep ∨ i = .txsPinGpio ∨ i = .txsPinAf) ∧
    (t.txLevel ≠ s.txLevel →
      i = .init ∨ i = .txStep ∨ i = .txsIdleHigh ∨ i = .txsBreakLow ∨ i = .txsMabHigh) ∧
    (t.cyc ≠ s.cyc ∨ t.now ≠ s.now → ∃ n, i = .envTick n) ∧
    (t.wireLog ≠ s.wireLog → i = .txStep ∨ i = .envTxDrain ∨ i.isMicroOp = true) ∧
    t.params = s.params ∧ t.trace = s.trace ∧ t.cfgInput = s.cfgInput

/-- R20, R25, R28, R31, R35, R183, R206, R207, R223, R250: once initialised, no operation un-initialises
the block (R25, R28, R250) or changes its configuration (R20), the serial format (R31), the receive pin
(R207, R35) or the direction pin (R183), and no operation disables the interrupt line (R206, R223). That the
parameters do not change either is about the model's own field (log 1). -/
def Obligations.SetupIsForever : Prop :=
  ∀ (i : Instr) (s t : State), s.inited = true → exec i s = .next t →
    t.inited = true ∧ t.cfg = s.cfg ∧ t.uartCfg = s.uartCfg ∧ t.rxPinMode = s.rxPinMode ∧
    t.dirPinMode = s.dirPinMode ∧ t.dirLevel = s.dirLevel ∧ t.params = s.params ∧
    (s.irqEnabled = true → t.irqEnabled = true)

/-- R40, R221: before `INIT`, every operation word but `INIT`, `ENV_TICK`, `ENV_IRQ_EN` and the receive
events (for which see `HandlerAdmission`) is refused. -/
def Obligations.NotInitialisedIsRefused : Prop :=
  ∀ (i : Instr) (s : State), s.inited = false → i.isMicroOp = false → i ≠ .init →
    i.agent = .foreground ∨ i = .envTxDrain → exec i s = .refused .notInitialised

/-- R131, R130, R132, R180: while a transmission is in progress the only foreground operation that has a
step is `TX_STEP`, which has one in every state the block can reach; the interrupt context is not affected.
That an event has a next state with the line disabled too, where the spec says "no step", is the model's
deduction (log 5). -/
def Obligations.BusyForegroundRunsOnlyTxStep : Prop :=
  ∀ s : State, s.inited = true → s.txPhase ≠ .idle →
    (∀ i : Instr, i.agent = .foreground → i.isMicroOp = false → i ≠ .txStep → i ≠ .init →
      exec i s = .refused .foregroundBusy) ∧
    exec .init s = .refused .alreadyInitialised ∧
    (BlockInv s → ∃ t, exec .txStep s = .next t) ∧
    ∀ fe rxne data, ∃ t, exec (.rxIrq fe rxne data) s = .next t

/-! ### Invariants -/

/-- R22, R37, R26, R31, R32, R205: every step keeps the invariant of the block. -/
def Obligations.StepKeepsInv : Prop :=
  ∀ s t : State, BlockInv s → step s = .next t → BlockInv t

/-- R226, R63: no step faults, and where the invariant holds the sequencer never asks for an index outside
its buffer. That no event is missed, so that `PeripheralOverrun` is never raised, is the model's deduction
(log 8); the refusal the last clause excludes is the model's choice (log 9). -/
def Obligations.StepNeverFaults : Prop :=
  ∀ s : State, (∀ r : Fault, step s ≠ .fault r) ∧
    (BlockInv s → ∀ w ws, s.trace = w :: ws → decode (.word w) = .ok .txStep →
      step s ≠ .refused .indexOutOfRange)

/-- R180, R193, R261: idle, break and mark are lower bounds: every step keeps every pulse of `wire_log`
at least as long as its parameter, however the steps interleave and though the counter wraps. -/
def Obligations.StepKeepsPulseTiming : Prop :=
  ∀ s t : State, BlockInv s → PulseInv s → step s = .next t → PulseInv t

/-- R34: every step keeps `wire_log` telling the pin's mode and latch. -/
def Obligations.StepKeepsLogTellsPin : Prop :=
  ∀ s t : State, BlockInv s → LogTellsPin s → step s = .next t → LogTellsPin t

/-! ### Time (43_timing_primitive.md) -/

/-- R34: `cyc` and `now` advance together: over every step the difference `cyc - now` modulo
`2^CYC_WIDTH` stays what it was at power-on. -/
def Obligations.CounterFollowsNow : Prop :=
  ∀ s t : State, step s = .next t →
    (t.cyc + s.now) % 2 ^ s.params.cycWidth = (s.cyc + t.now) % 2 ^ s.params.cycWidth ∧
    s.now ≤ t.now

/-- R190, R192, R264: after a wait is armed, the cycles it reads as elapsed are the ticks since, wrapped at
`2^CYC_WIDTH`. -/
def Obligations.WaitMeasuresTicks : Prop :=
  ∀ (s : State) (ns : List Nat), s.cyc < 2 ^ s.params.cycWidth → s.waitT0 = s.cyc →
    ∃ t, execAll (ns.map .envTick) s = .next t ∧ t.elapsed = ns.sum % 2 ^ s.params.cycWidth ∧
      t = { s with cyc := t.cyc, now := s.now + ns.sum }

/-- R193: a wait ends: with `k` cycles elapsed, a tick of `n` cycles that reaches the pulse's length, with
the next poll before the counter comes round, ends it at that poll. -/
def Obligations.WaitEndsOnceElapsed : Prop :=
  ∀ (s : State) (r : PulseRow) (k n : Nat), r ∈ pulseRows s.params → s.inited = true →
    s.txPhase = r.phase → s.waitArmed = true → s.cyc = (s.waitT0 + k) % 2 ^ s.params.cycWidth →
    r.length ≤ k + n → k + n < 2 ^ s.params.cycWidth →
    ∃ t, execAll [.envTick n, .txStep] s = .next t ∧ t.txPhase = r.succ ∧ t.waitArmed = false

/-! ### The wire (42_transmit_sequencer.md R179) -/

/-- R179, over every interleaving: a transmission that `START_TX` begins appends to `wire_log`, in order,
`Mode(GPIO)`, `Level(1)`, `Level(0)`, `Level(1)`, `Mode(AF)` and the frames of the bytes `tx_buffer` held
then; no step of any agent departs from that order, from `START_TX` to its return and from there, in
`IDLE`, until the next `START_TX`; and after the return and one `ENV_TX_DRAIN` the frames are all the
`TX_CAPACITY` bytes. That this `ENV_TX_DRAIN` has a next state with `tdr` already empty too, where R205 says
"no step", is the model's deduction (log 5). (The bounds on the stamps are `StepKeepsPulseTiming`.) -/
def Obligations.TransmissionWireResult : Prop :=
  (∀ s t : State, exec .startTx s = .next t →
    Transmitting (s.wireLog.map LogEntry.event) (s.memRead .txb) t) ∧
  (∀ (before : List WireEvent) (bytes : Nat → Byte) (s t : State), BlockInv s → s.inited = true →
    Transmitting before bytes s →
    (s.txPhase = .idle → ∀ w ws, s.trace = w :: ws → decode (.word w) ≠ .ok .startTx) →
    step s = .next t →
    Transmitting before bytes t ∧ t.inited = true ∧ (s.txPhase = .idle → t.txPhase = .idle)) ∧
  (∀ (before : List WireEvent) (bytes : Nat → Byte) (s : State), s.inited = true → s.txPhase = .idle →
    Transmitting before bytes s →
    ∃ t, exec .envTxDrain s = .next t ∧
      t.wireLog.map LogEntry.event = before ++ preamble ++ framesOf bytes s.params.txCapacity)

/-- R98, R179: `RUN_TX` with no interrupt completes, with this `wire_log`, stamps included, and leaves
`tx_buffer` as it was. A pulse of 2^24 cycles or more is one `ENV_TICK` whose count no word spells: the
model's deduction (log 19). -/
def Obligations.RunTxWireLog : Prop :=
  ∀ s : State, BlockInv s → s.inited = true → s.txPhase = .idle → s.txe = true →
    let onAir := s.now + s.params.tIdle + s.params.tBreak + s.params.tMab
    ∃ t, execAll (runTx s.params) s = .next t ∧ t.txPhase = .idle ∧ t.txe = true ∧
      t.now = onAir ∧ t.txBuffer = s.txBuffer ∧
      t.wireLog = s.wireLog ++
        [⟨s.now, .mode .gpio⟩, ⟨s.now, .level true⟩, ⟨s.now + s.params.tIdle, .level false⟩,
         ⟨s.now + s.params.tIdle + s.params.tBreak, .level true⟩, ⟨onAir, .mode .af⟩] ++
        (framesOf (s.memRead .txb) s.params.txCapacity).map (fun e => ⟨onAir, e⟩)

/-- R179, R128 (95_test_vectors.md Q5, read with `N = TX_CAPACITY`): filling the transmit buffer and
running the transmission puts exactly those bytes on the wire, in order, after one break and one mark.
(Pulses of 2^24 cycles or more: log 19.) -/
def Obligations.FillThenTransmitRoundTrip : Prop :=
  ∀ (s : State) (bytes : List Byte), BlockInv s → s.inited = true → s.txPhase = .idle → s.txe = true →
    bytes.length = s.params.txCapacity →
    ∃ t, execAll (fillTx bytes ++ runTx s.params) s = .next t ∧
      t.wireLog.map LogEntry.event =
        s.wireLog.map LogEntry.event ++ preamble ++ bytes.map WireEvent.frame

/-! ### The level of the line (10_state.md R34) -/

/-- R34: the line's level from the log alone: while the last `Mode` entry is `GPIO` it is the last `Level`
entry's; while it is `AF` it is high when no frame can be on the line, that is when `tdr` is empty and the
log does not end in a frame (the model's reading of "except during a `Frame`", log 21). -/
def Obligations.LineLevelFollowsLog : Prop :=
  ∀ (s : State) (early late : List LogEntry) (n : Nat) (m : TxPinMode),
    s.wireLog = early ++ ⟨n, .mode m⟩ :: late → (∀ e ∈ late, ∀ k, e.event ≠ .mode k) →
    (m = .gpio → ∀ (first rest : List LogEntry) (k : Nat) (l : Bool),
      s.wireLog = first ++ ⟨k, .level l⟩ :: rest → (∀ e ∈ rest, ∀ x, e.event ≠ .level x) →
      lineLevel s = l) ∧
    (m = .af → s.txe = true → (∀ first k b, s.wireLog ≠ first ++ [⟨k, .frame b⟩]) → lineLevel s = true)

/-- R34, R171 to R174, R207: the line through the phases of a transmission: what the latch held until the
idle interval begins, high in it, low in the break, high in the mark, and high with the pin given back
until a frame can be on the line (log 21). -/
def Obligations.LineLevelInEachPhase : Prop :=
  ∀ s : State, BlockInv s → LogTellsPin s → PulseInv s → s.inited = true →
    (s.txPhase = .idleHigh → s.waitArmed = false → lineLevel s = s.txLevel) ∧
    (s.txPhase = .idleHigh → s.waitArmed = true → lineLevel s = true) ∧
    (s.txPhase = .breakLow → lineLevel s = !s.waitArmed) ∧
    (s.txPhase = .mabHigh → lineLevel s = s.waitArmed) ∧
    (s.txPhase = .pinAf → lineLevel s = true) ∧
    (s.txPhase = .idle ∨ s.txPhase = .pinGpio ∨ s.txPhase = .send → s.txe = true →
      (∀ first k b, s.wireLog ≠ first ++ [⟨k, .frame b⟩]) → lineLevel s = true)
end

