-- ==== Sys2Proof/Laws/Decode.lean ====
section
/-!
SUPPORT. The fields of a packed word, a word as its packed fields, and the opcodes that are assigned.
-/

namespace Sys2Proof

theorem packWord_toNat {opc low : Nat} (h1 : opc < 256) (h2 : low < 16777216) :
    (packWord opc low).toNat = opc * 16777216 + low := by
  simp only [packWord, BitVec.toNat_ofNat]
  omega

theorem opcOf_packWord {opc low : Nat} (h1 : opc < 256) (h2 : low < 16777216) :
    opcOf (packWord opc low) = opc := by
  simp only [opcOf, slice, packWord_toNat h1 h2]
  omega

/-- A slice below the opcode is a slice of the low part. -/
theorem slice_packWord {opc low hi lo : Nat} (h1 : opc < 256) (h2 : low < 16777216) (h : hi < 24)
    (h' : lo ≤ hi) :
    slice (packWord opc low) hi lo = low / 2 ^ lo % 2 ^ (hi + 1 - lo) := by
  have e : 16777216 = 2 ^ lo * 2 ^ (hi + 1 - lo) * 2 ^ (23 - hi) := by
    rw [← Nat.pow_add, ← Nat.pow_add, show lo + (hi + 1 - lo) + (23 - hi) = 24 by omega]
  simp only [slice, packWord_toNat h1 h2]
  rw [e, show opc * (2 ^ lo * 2 ^ (hi + 1 - lo) * 2 ^ (23 - hi)) + low =
      low + 2 ^ lo * (opc * 2 ^ (23 - hi) * 2 ^ (hi + 1 - lo)) by ring,
    Nat.add_mul_div_left _ _ (Nat.two_pow_pos _), Nat.add_mul_mod_self_right]

/-- A word is its opcode and the 24 bits below it. -/
theorem packWord_opcOf_nOf (w : OpWord) : packWord (opcOf w) (nOf w) = w := by
  apply BitVec.eq_of_toNat_eq
  have := w.isLt
  simp only [packWord, opcOf, nOf, slice, BitVec.toNat_ofNat]
  omega

/-- The fifteen assigned opcodes (30_encoding.md R93). -/
theorem assigned_of_formatOf {opc : Nat} {f : Format} (h : formatOf opc = some f) :
    opc ∈ [0x01, 0x02, 0x03, 0x04, 0x05, 0x06, 0x07, 0x08, 0x10, 0x11, 0x12, 0x80, 0xE0, 0xE1, 0xE2] := by
  unfold formatOf at h
  split at h <;> simp at h ⊢

end Sys2Proof
end

