-- ==== Sys2Proof/Laws/State.lean ====
section
/-!
SUPPORT. One lemma per field per named update of State: what the field holds after the update. Each is
true by rfl, so no later proof unfolds a record update.
-/

namespace Sys2Proof.Machine.State

variable (s : State)

/-! ### setRxBuffer -/

@[simp] theorem setRxBuffer_params (m : Memory) : (s.setRxBuffer m).params = s.params := rfl
@[simp] theorem setRxBuffer_cfg (m : Memory) : (s.setRxBuffer m).cfg = s.cfg := rfl
@[simp] theorem setRxBuffer_rxBuffer (m : Memory) : (s.setRxBuffer m).rxBuffer = m := rfl
@[simp] theorem setRxBuffer_rxPosition (m : Memory) : (s.setRxBuffer m).rxPosition = s.rxPosition := rfl
@[simp] theorem setRxBuffer_rxReady (m : Memory) : (s.setRxBuffer m).rxReady = s.rxReady := rfl
@[simp] theorem setRxBuffer_txBuffer (m : Memory) : (s.setRxBuffer m).txBuffer = s.txBuffer := rfl
@[simp] theorem setRxBuffer_txPhase (m : Memory) : (s.setRxBuffer m).txPhase = s.txPhase := rfl
@[simp] theorem setRxBuffer_txIndex (m : Memory) : (s.setRxBuffer m).txIndex = s.txIndex := rfl
@[simp] theorem setRxBuffer_waitArmed (m : Memory) : (s.setRxBuffer m).waitArmed = s.waitArmed := rfl
@[simp] theorem setRxBuffer_waitT0 (m : Memory) : (s.setRxBuffer m).waitT0 = s.waitT0 := rfl
@[simp] theorem setRxBuffer_inited (m : Memory) : (s.setRxBuffer m).inited = s.inited := rfl
@[simp] theorem setRxBuffer_irqEnabled (m : Memory) : (s.setRxBuffer m).irqEnabled = s.irqEnabled := rfl
@[simp] theorem setRxBuffer_txe (m : Memory) : (s.setRxBuffer m).txe = s.txe := rfl
@[simp] theorem setRxBuffer_tdr (m : Memory) : (s.setRxBuffer m).tdr = s.tdr := rfl
@[simp] theorem setRxBuffer_uartCfg (m : Memory) : (s.setRxBuffer m).uartCfg = s.uartCfg := rfl
@[simp] theorem setRxBuffer_rxPinMode (m : Memory) : (s.setRxBuffer m).rxPinMode = s.rxPinMode := rfl
@[simp] theorem setRxBuffer_txPinMode (m : Memory) : (s.setRxBuffer m).txPinMode = s.txPinMode := rfl
@[simp] theorem setRxBuffer_txLevel (m : Memory) : (s.setRxBuffer m).txLevel = s.txLevel := rfl
@[simp] theorem setRxBuffer_dirPinMode (m : Memory) : (s.setRxBuffer m).dirPinMode = s.dirPinMode := rfl
@[simp] theorem setRxBuffer_dirLevel (m : Memory) : (s.setRxBuffer m).dirLevel = s.dirLevel := rfl
@[simp] theorem setRxBuffer_cyc (m : Memory) : (s.setRxBuffer m).cyc = s.cyc := rfl
@[simp] theorem setRxBuffer_now (m : Memory) : (s.setRxBuffer m).now = s.now := rfl
@[simp] theorem setRxBuffer_wireLog (m : Memory) : (s.setRxBuffer m).wireLog = s.wireLog := rfl
@[simp] theorem setRxBuffer_trace (m : Memory) : (s.setRxBuffer m).trace = s.trace := rfl
@[simp] theorem setRxBuffer_cfgInput (m : Memory) : (s.setRxBuffer m).cfgInput = s.cfgInput := rfl
@[simp] theorem setRxBuffer_ret (m : Memory) : (s.setRxBuffer m).ret = s.ret := rfl
@[simp] theorem setRxBuffer_freeCount (m : Memory) : (s.setRxBuffer m).freeCount = s.freeCount := rfl

/-! ### setTxBuffer -/

@[simp] theorem setTxBuffer_params (m : Memory) : (s.setTxBuffer m).params = s.params := rfl
@[simp] theorem setTxBuffer_cfg (m : Memory) : (s.setTxBuffer m).cfg = s.cfg := rfl
@[simp] theorem setTxBuffer_rxBuffer (m : Memory) : (s.setTxBuffer m).rxBuffer = s.rxBuffer := rfl
@[simp] theorem setTxBuffer_rxPosition (m : Memory) : (s.setTxBuffer m).rxPosition = s.rxPosition := rfl
@[simp] theorem setTxBuffer_rxReady (m : Memory) : (s.setTxBuffer m).rxReady = s.rxReady := rfl
@[simp] theorem setTxBuffer_txBuffer (m : Memory) : (s.setTxBuffer m).txBuffer = m := rfl
@[simp] theorem setTxBuffer_txPhase (m : Memory) : (s.setTxBuffer m).txPhase = s.txPhase := rfl
@[simp] theorem setTxBuffer_txIndex (m : Memory) : (s.setTxBuffer m).txIndex = s.txIndex := rfl
@[simp] theorem setTxBuffer_waitArmed (m : Memory) : (s.setTxBuffer m).waitArmed = s.waitArmed := rfl
@[simp] theorem setTxBuffer_waitT0 (m : Memory) : (s.setTxBuffer m).waitT0 = s.waitT0 := rfl
@[simp] theorem setTxBuffer_inited (m : Memory) : (s.setTxBuffer m).inited = s.inited := rfl
@[simp] theorem setTxBuffer_irqEnabled (m : Memory) : (s.setTxBuffer m).irqEnabled = s.irqEnabled := rfl
@[simp] theorem setTxBuffer_txe (m : Memory) : (s.setTxBuffer m).txe = s.txe := rfl
@[simp] theorem setTxBuffer_tdr (m : Memory) : (s.setTxBuffer m).tdr = s.tdr := rfl
@[simp] theorem setTxBuffer_uartCfg (m : Memory) : (s.setTxBuffer m).uartCfg = s.uartCfg := rfl
@[simp] theorem setTxBuffer_rxPinMode (m : Memory) : (s.setTxBuffer m).rxPinMode = s.rxPinMode := rfl
@[simp] theorem setTxBuffer_txPinMode (m : Memory) : (s.setTxBuffer m).txPinMode = s.txPinMode := rfl
@[simp] theorem setTxBuffer_txLevel (m : Memory) : (s.setTxBuffer m).txLevel = s.txLevel := rfl
@[simp] theorem setTxBuffer_dirPinMode (m : Memory) : (s.setTxBuffer m).dirPinMode = s.dirPinMode := rfl
@[simp] theorem setTxBuffer_dirLevel (m : Memory) : (s.setTxBuffer m).dirLevel = s.dirLevel := rfl
@[simp] theorem setTxBuffer_cyc (m : Memory) : (s.setTxBuffer m).cyc = s.cyc := rfl
@[simp] theorem setTxBuffer_now (m : Memory) : (s.setTxBuffer m).now = s.now := rfl
@[simp] theorem setTxBuffer_wireLog (m : Memory) : (s.setTxBuffer m).wireLog = s.wireLog := rfl
@[simp] theorem setTxBuffer_trace (m : Memory) : (s.setTxBuffer m).trace = s.trace := rfl
@[simp] theorem setTxBuffer_cfgInput (m : Memory) : (s.setTxBuffer m).cfgInput = s.cfgInput := rfl
@[simp] theorem setTxBuffer_ret (m : Memory) : (s.setTxBuffer m).ret = s.ret := rfl
@[simp] theorem setTxBuffer_freeCount (m : Memory) : (s.setTxBuffer m).freeCount = s.freeCount := rfl

/-! ### setRet -/

@[simp] theorem setRet_params (r : Ret) : (s.setRet r).params = s.params := rfl
@[simp] theorem setRet_cfg (r : Ret) : (s.setRet r).cfg = s.cfg := rfl
@[simp] theorem setRet_rxBuffer (r : Ret) : (s.setRet r).rxBuffer = s.rxBuffer := rfl
@[simp] theorem setRet_rxPosition (r : Ret) : (s.setRet r).rxPosition = s.rxPosition := rfl
@[simp] theorem setRet_rxReady (r : Ret) : (s.setRet r).rxReady = s.rxReady := rfl
@[simp] theorem setRet_txBuffer (r : Ret) : (s.setRet r).txBuffer = s.txBuffer := rfl
@[simp] theorem setRet_txPhase (r : Ret) : (s.setRet r).txPhase = s.txPhase := rfl
@[simp] theorem setRet_txIndex (r : Ret) : (s.setRet r).txIndex = s.txIndex := rfl
@[simp] theorem setRet_waitArmed (r : Ret) : (s.setRet r).waitArmed = s.waitArmed := rfl
@[simp] theorem setRet_waitT0 (r : Ret) : (s.setRet r).waitT0 = s.waitT0 := rfl
@[simp] theorem setRet_inited (r : Ret) : (s.setRet r).inited = s.inited := rfl
@[simp] theorem setRet_irqEnabled (r : Ret) : (s.setRet r).irqEnabled = s.irqEnabled := rfl
@[simp] theorem setRet_txe (r : Ret) : (s.setRet r).txe = s.txe := rfl
@[simp] theorem setRet_tdr (r : Ret) : (s.setRet r).tdr = s.tdr := rfl
@[simp] theorem setRet_uartCfg (r : Ret) : (s.setRet r).uartCfg = s.uartCfg := rfl
@[simp] theorem setRet_rxPinMode (r : Ret) : (s.setRet r).rxPinMode = s.rxPinMode := rfl
@[simp] theorem setRet_txPinMode (r : Ret) : (s.setRet r).txPinMode = s.txPinMode := rfl
@[simp] theorem setRet_txLevel (r : Ret) : (s.setRet r).txLevel = s.txLevel := rfl
@[simp] theorem setRet_dirPinMode (r : Ret) : (s.setRet r).dirPinMode = s.dirPinMode := rfl
@[simp] theorem setRet_dirLevel (r : Ret) : (s.setRet r).dirLevel = s.dirLevel := rfl
@[simp] theorem setRet_cyc (r : Ret) : (s.setRet r).cyc = s.cyc := rfl
@[simp] theorem setRet_now (r : Ret) : (s.setRet r).now = s.now := rfl
@[simp] theorem setRet_wireLog (r : Ret) : (s.setRet r).wireLog = s.wireLog := rfl
@[simp] theorem setRet_trace (r : Ret) : (s.setRet r).trace = s.trace := rfl
@[simp] theorem setRet_cfgInput (r : Ret) : (s.setRet r).cfgInput = s.cfgInput := rfl
@[simp] theorem setRet_ret (r : Ret) : (s.setRet r).ret = r := rfl
@[simp] theorem setRet_freeCount (r : Ret) : (s.setRet r).freeCount = s.freeCount := rfl

/-! ### setRxPosition -/

@[simp] theorem setRxPosition_params (n : Nat) : (s.setRxPosition n).params = s.params := rfl
@[simp] theorem setRxPosition_cfg (n : Nat) : (s.setRxPosition n).cfg = s.cfg := rfl
@[simp] theorem setRxPosition_rxBuffer (n : Nat) : (s.setRxPosition n).rxBuffer = s.rxBuffer := rfl
@[simp] theorem setRxPosition_rxPosition (n : Nat) : (s.setRxPosition n).rxPosition = n := rfl
@[simp] theorem setRxPosition_rxReady (n : Nat) : (s.setRxPosition n).rxReady = s.rxReady := rfl
@[simp] theorem setRxPosition_txBuffer (n : Nat) : (s.setRxPosition n).txBuffer = s.txBuffer := rfl
@[simp] theorem setRxPosition_txPhase (n : Nat) : (s.setRxPosition n).txPhase = s.txPhase := rfl
@[simp] theorem setRxPosition_txIndex (n : Nat) : (s.setRxPosition n).txIndex = s.txIndex := rfl
@[simp] theorem setRxPosition_waitArmed (n : Nat) : (s.setRxPosition n).waitArmed = s.waitArmed := rfl
@[simp] theorem setRxPosition_waitT0 (n : Nat) : (s.setRxPosition n).waitT0 = s.waitT0 := rfl
@[simp] theorem setRxPosition_inited (n : Nat) : (s.setRxPosition n).inited = s.inited := rfl
@[simp] theorem setRxPosition_irqEnabled (n : Nat) : (s.setRxPosition n).irqEnabled = s.irqEnabled := rfl
@[simp] theorem setRxPosition_txe (n : Nat) : (s.setRxPosition n).txe = s.txe := rfl
@[simp] theorem setRxPosition_tdr (n : Nat) : (s.setRxPosition n).tdr = s.tdr := rfl
@[simp] theorem setRxPosition_uartCfg (n : Nat) : (s.setRxPosition n).uartCfg = s.uartCfg := rfl
@[simp] theorem setRxPosition_rxPinMode (n : Nat) : (s.setRxPosition n).rxPinMode = s.rxPinMode := rfl
@[simp] theorem setRxPosition_txPinMode (n : Nat) : (s.setRxPosition n).txPinMode = s.txPinMode := rfl
@[simp] theorem setRxPosition_txLevel (n : Nat) : (s.setRxPosition n).txLevel = s.txLevel := rfl
@[simp] theorem setRxPosition_dirPinMode (n : Nat) : (s.setRxPosition n).dirPinMode = s.dirPinMode := rfl
@[simp] theorem setRxPosition_dirLevel (n : Nat) : (s.setRxPosition n).dirLevel = s.dirLevel := rfl
@[simp] theorem setRxPosition_cyc (n : Nat) : (s.setRxPosition n).cyc = s.cyc := rfl
@[simp] theorem setRxPosition_now (n : Nat) : (s.setRxPosition n).now = s.now := rfl
@[simp] theorem setRxPosition_wireLog (n : Nat) : (s.setRxPosition n).wireLog = s.wireLog := rfl
@[simp] theorem setRxPosition_trace (n : Nat) : (s.setRxPosition n).trace = s.trace := rfl
@[simp] theorem setRxPosition_cfgInput (n : Nat) : (s.setRxPosition n).cfgInput = s.cfgInput := rfl
@[simp] theorem setRxPosition_ret (n : Nat) : (s.setRxPosition n).ret = s.ret := rfl
@[simp] theorem setRxPosition_freeCount (n : Nat) : (s.setRxPosition n).freeCount = s.freeCount := rfl

/-! ### setTxPhase -/

@[simp] theorem setTxPhase_params (p : TxPhase) : (s.setTxPhase p).params = s.params := rfl
@[simp] theorem setTxPhase_cfg (p : TxPhase) : (s.setTxPhase p).cfg = s.cfg := rfl
@[simp] theorem setTxPhase_rxBuffer (p : TxPhase) : (s.setTxPhase p).rxBuffer = s.rxBuffer := rfl
@[simp] theorem setTxPhase_rxPosition (p : TxPhase) : (s.setTxPhase p).rxPosition = s.rxPosition := rfl
@[simp] theorem setTxPhase_rxReady (p : TxPhase) : (s.setTxPhase p).rxReady = s.rxReady := rfl
@[simp] theorem setTxPhase_txBuffer (p : TxPhase) : (s.setTxPhase p).txBuffer = s.txBuffer := rfl
@[simp] theorem setTxPhase_txPhase (p : TxPhase) : (s.setTxPhase p).txPhase = p := rfl
@[simp] theorem setTxPhase_txIndex (p : TxPhase) : (s.setTxPhase p).txIndex = s.txIndex := rfl
@[simp] theorem setTxPhase_waitArmed (p : TxPhase) : (s.setTxPhase p).waitArmed = s.waitArmed := rfl
@[simp] theorem setTxPhase_waitT0 (p : TxPhase) : (s.setTxPhase p).waitT0 = s.waitT0 := rfl
@[simp] theorem setTxPhase_inited (p : TxPhase) : (s.setTxPhase p).inited = s.inited := rfl
@[simp] theorem setTxPhase_irqEnabled (p : TxPhase) : (s.setTxPhase p).irqEnabled = s.irqEnabled := rfl
@[simp] theorem setTxPhase_txe (p : TxPhase) : (s.setTxPhase p).txe = s.txe := rfl
@[simp] theorem setTxPhase_tdr (p : TxPhase) : (s.setTxPhase p).tdr = s.tdr := rfl
@[simp] theorem setTxPhase_uartCfg (p : TxPhase) : (s.setTxPhase p).uartCfg = s.uartCfg := rfl
@[simp] theorem setTxPhase_rxPinMode (p : TxPhase) : (s.setTxPhase p).rxPinMode = s.rxPinMode := rfl
@[simp] theorem setTxPhase_txPinMode (p : TxPhase) : (s.setTxPhase p).txPinMode = s.txPinMode := rfl
@[simp] theorem setTxPhase_txLevel (p : TxPhase) : (s.setTxPhase p).txLevel = s.txLevel := rfl
@[simp] theorem setTxPhase_dirPinMode (p : TxPhase) : (s.setTxPhase p).dirPinMode = s.dirPinMode := rfl
@[simp] theorem setTxPhase_dirLevel (p : TxPhase) : (s.setTxPhase p).dirLevel = s.dirLevel := rfl
@[simp] theorem setTxPhase_cyc (p : TxPhase) : (s.setTxPhase p).cyc = s.cyc := rfl
@[simp] theorem setTxPhase_now (p : TxPhase) : (s.setTxPhase p).now = s.now := rfl
@[simp] theorem setTxPhase_wireLog (p : TxPhase) : (s.setTxPhase p).wireLog = s.wireLog := rfl
@[simp] theorem setTxPhase_trace (p : TxPhase) : (s.setTxPhase p).trace = s.trace := rfl
@[simp] theorem setTxPhase_cfgInput (p : TxPhase) : (s.setTxPhase p).cfgInput = s.cfgInput := rfl
@[simp] theorem setTxPhase_ret (p : TxPhase) : (s.setTxPhase p).ret = s.ret := rfl
@[simp] theorem setTxPhase_freeCount (p : TxPhase) : (s.setTxPhase p).freeCount = s.freeCount := rfl

/-! ### setTxIndex -/

@[simp] theorem setTxIndex_params (n : Nat) : (s.setTxIndex n).params = s.params := rfl
@[simp] theorem setTxIndex_cfg (n : Nat) : (s.setTxIndex n).cfg = s.cfg := rfl
@[simp] theorem setTxIndex_rxBuffer (n : Nat) : (s.setTxIndex n).rxBuffer = s.rxBuffer := rfl
@[simp] theorem setTxIndex_rxPosition (n : Nat) : (s.setTxIndex n).rxPosition = s.rxPosition := rfl
@[simp] theorem setTxIndex_rxReady (n : Nat) : (s.setTxIndex n).rxReady = s.rxReady := rfl
@[simp] theorem setTxIndex_txBuffer (n : Nat) : (s.setTxIndex n).txBuffer = s.txBuffer := rfl
@[simp] theorem setTxIndex_txPhase (n : Nat) : (s.setTxIndex n).txPhase = s.txPhase := rfl
@[simp] theorem setTxIndex_txIndex (n : Nat) : (s.setTxIndex n).txIndex = n := rfl
@[simp] theorem setTxIndex_waitArmed (n : Nat) : (s.setTxIndex n).waitArmed = s.waitArmed := rfl
@[simp] theorem setTxIndex_waitT0 (n : Nat) : (s.setTxIndex n).waitT0 = s.waitT0 := rfl
@[simp] theorem setTxIndex_inited (n : Nat) : (s.setTxIndex n).inited = s.inited := rfl
@[simp] theorem setTxIndex_irqEnabled (n : Nat) : (s.setTxIndex n).irqEnabled = s.irqEnabled := rfl
@[simp] theorem setTxIndex_txe (n : Nat) : (s.setTxIndex n).txe = s.txe := rfl
@[simp] theorem setTxIndex_tdr (n : Nat) : (s.setTxIndex n).tdr = s.tdr := rfl
@[simp] theorem setTxIndex_uartCfg (n : Nat) : (s.setTxIndex n).uartCfg = s.uartCfg := rfl
@[simp] theorem setTxIndex_rxPinMode (n : Nat) : (s.setTxIndex n).rxPinMode = s.rxPinMode := rfl
@[simp] theorem setTxIndex_txPinMode (n : Nat) : (s.setTxIndex n).txPinMode = s.txPinMode := rfl
@[simp] theorem setTxIndex_txLevel (n : Nat) : (s.setTxIndex n).txLevel = s.txLevel := rfl
@[simp] theorem setTxIndex_dirPinMode (n : Nat) : (s.setTxIndex n).dirPinMode = s.dirPinMode := rfl
@[simp] theorem setTxIndex_dirLevel (n : Nat) : (s.setTxIndex n).dirLevel = s.dirLevel := rfl
@[simp] theorem setTxIndex_cyc (n : Nat) : (s.setTxIndex n).cyc = s.cyc := rfl
@[simp] theorem setTxIndex_now (n : Nat) : (s.setTxIndex n).now = s.now := rfl
@[simp] theorem setTxIndex_wireLog (n : Nat) : (s.setTxIndex n).wireLog = s.wireLog := rfl
@[simp] theorem setTxIndex_trace (n : Nat) : (s.setTxIndex n).trace = s.trace := rfl
@[simp] theorem setTxIndex_cfgInput (n : Nat) : (s.setTxIndex n).cfgInput = s.cfgInput := rfl
@[simp] theorem setTxIndex_ret (n : Nat) : (s.setTxIndex n).ret = s.ret := rfl
@[simp] theorem setTxIndex_freeCount (n : Nat) : (s.setTxIndex n).freeCount = s.freeCount := rfl

/-! ### log -/

@[simp] theorem log_params (e : WireEvent) : (s.log e).params = s.params := rfl
@[simp] theorem log_cfg (e : WireEvent) : (s.log e).cfg = s.cfg := rfl
@[simp] theorem log_rxBuffer (e : WireEvent) : (s.log e).rxBuffer = s.rxBuffer := rfl
@[simp] theorem log_rxPosition (e : WireEvent) : (s.log e).rxPosition = s.rxPosition := rfl
@[simp] theorem log_rxReady (e : WireEvent) : (s.log e).rxReady = s.rxReady := rfl
@[simp] theorem log_txBuffer (e : WireEvent) : (s.log e).txBuffer = s.txBuffer := rfl
@[simp] theorem log_txPhase (e : WireEvent) : (s.log e).txPhase = s.txPhase := rfl
@[simp] theorem log_txIndex (e : WireEvent) : (s.log e).txIndex = s.txIndex := rfl
@[simp] theorem log_waitArmed (e : WireEvent) : (s.log e).waitArmed = s.waitArmed := rfl
@[simp] theorem log_waitT0 (e : WireEvent) : (s.log e).waitT0 = s.waitT0 := rfl
@[simp] theorem log_inited (e : WireEvent) : (s.log e).inited = s.inited := rfl
@[simp] theorem log_irqEnabled (e : WireEvent) : (s.log e).irqEnabled = s.irqEnabled := rfl
@[simp] theorem log_txe (e : WireEvent) : (s.log e).txe = s.txe := rfl
@[simp] theorem log_tdr (e : WireEvent) : (s.log e).tdr = s.tdr := rfl
@[simp] theorem log_uartCfg (e : WireEvent) : (s.log e).uartCfg = s.uartCfg := rfl
@[simp] theorem log_rxPinMode (e : WireEvent) : (s.log e).rxPinMode = s.rxPinMode := rfl
@[simp] theorem log_txPinMode (e : WireEvent) : (s.log e).txPinMode = s.txPinMode := rfl
@[simp] theorem log_txLevel (e : WireEvent) : (s.log e).txLevel = s.txLevel := rfl
@[simp] theorem log_dirPinMode (e : WireEvent) : (s.log e).dirPinMode = s.dirPinMode := rfl
@[simp] theorem log_dirLevel (e : WireEvent) : (s.log e).dirLevel = s.dirLevel := rfl
@[simp] theorem log_cyc (e : WireEvent) : (s.log e).cyc = s.cyc := rfl
@[simp] theorem log_now (e : WireEvent) : (s.log e).now = s.now := rfl
@[simp] theorem log_wireLog (e : WireEvent) : (s.log e).wireLog = s.wireLog ++ [⟨s.now, e⟩] := rfl
@[simp] theorem log_trace (e : WireEvent) : (s.log e).trace = s.trace := rfl
@[simp] theorem log_cfgInput (e : WireEvent) : (s.log e).cfgInput = s.cfgInput := rfl
@[simp] theorem log_ret (e : WireEvent) : (s.log e).ret = s.ret := rfl
@[simp] theorem log_freeCount (e : WireEvent) : (s.log e).freeCount = s.freeCount := rfl

/-! ### switchTxPin -/

@[simp] theorem switchTxPin_params (m : TxPinMode) : (s.switchTxPin m).params = s.params := rfl
@[simp] theorem switchTxPin_cfg (m : TxPinMode) : (s.switchTxPin m).cfg = s.cfg := rfl
@[simp] theorem switchTxPin_rxBuffer (m : TxPinMode) : (s.switchTxPin m).rxBuffer = s.rxBuffer := rfl
@[simp] theorem switchTxPin_rxPosition (m : TxPinMode) : (s.switchTxPin m).rxPosition = s.rxPosition := rfl
@[simp] theorem switchTxPin_rxReady (m : TxPinMode) : (s.switchTxPin m).rxReady = s.rxReady := rfl
@[simp] theorem switchTxPin_txBuffer (m : TxPinMode) : (s.switchTxPin m).txBuffer = s.txBuffer := rfl
@[simp] theorem switchTxPin_txPhase (m : TxPinMode) : (s.switchTxPin m).txPhase = s.txPhase := rfl
@[simp] theorem switchTxPin_txIndex (m : TxPinMode) : (s.switchTxPin m).txIndex = s.txIndex := rfl
@[simp] theorem switchTxPin_waitArmed (m : TxPinMode) : (s.switchTxPin m).waitArmed = s.waitArmed := rfl
@[simp] theorem switchTxPin_waitT0 (m : TxPinMode) : (s.switchTxPin m).waitT0 = s.waitT0 := rfl
@[simp] theorem switchTxPin_inited (m : TxPinMode) : (s.switchTxPin m).inited = s.inited := rfl
@[simp] theorem switchTxPin_irqEnabled (m : TxPinMode) : (s.switchTxPin m).irqEnabled = s.irqEnabled := rfl
@[simp] theorem switchTxPin_txe (m : TxPinMode) : (s.switchTxPin m).txe = s.txe := rfl
@[simp] theorem switchTxPin_tdr (m : TxPinMode) : (s.switchTxPin m).tdr = s.tdr := rfl
@[simp] theorem switchTxPin_uartCfg (m : TxPinMode) : (s.switchTxPin m).uartCfg = s.uartCfg := rfl
@[simp] theorem switchTxPin_rxPinMode (m : TxPinMode) : (s.switchTxPin m).rxPinMode = s.rxPinMode := rfl
@[simp] theorem switchTxPin_txPinMode (m : TxPinMode) : (s.switchTxPin m).txPinMode = m := rfl
@[simp] theorem switchTxPin_txLevel (m : TxPinMode) : (s.switchTxPin m).txLevel = s.txLevel := rfl
@[simp] theorem switchTxPin_dirPinMode (m : TxPinMode) : (s.switchTxPin m).dirPinMode = s.dirPinMode := rfl
@[simp] theorem switchTxPin_dirLevel (m : TxPinMode) : (s.switchTxPin m).dirLevel = s.dirLevel := rfl
@[simp] theorem switchTxPin_cyc (m : TxPinMode) : (s.switchTxPin m).cyc = s.cyc := rfl
@[simp] theorem switchTxPin_now (m : TxPinMode) : (s.switchTxPin m).now = s.now := rfl
@[simp] theorem switchTxPin_wireLog (m : TxPinMode) : (s.switchTxPin m).wireLog = s.wireLog ++ [⟨s.now, .mode m⟩] := rfl
@[simp] theorem switchTxPin_trace (m : TxPinMode) : (s.switchTxPin m).trace = s.trace := rfl
@[simp] theorem switchTxPin_cfgInput (m : TxPinMode) : (s.switchTxPin m).cfgInput = s.cfgInput := rfl
@[simp] theorem switchTxPin_ret (m : TxPinMode) : (s.switchTxPin m).ret = s.ret := rfl
@[simp] theorem switchTxPin_freeCount (m : TxPinMode) : (s.switchTxPin m).freeCount = s.freeCount := rfl

/-! ### driveTx -/

@[simp] theorem driveTx_params (l : Bool) : (s.driveTx l).params = s.params := rfl
@[simp] theorem driveTx_cfg (l : Bool) : (s.driveTx l).cfg = s.cfg := rfl
@[simp] theorem driveTx_rxBuffer (l : Bool) : (s.driveTx l).rxBuffer = s.rxBuffer := rfl
@[simp] theorem driveTx_rxPosition (l : Bool) : (s.driveTx l).rxPosition = s.rxPosition := rfl
@[simp] theorem driveTx_rxReady (l : Bool) : (s.driveTx l).rxReady = s.rxReady := rfl
@[simp] theorem driveTx_txBuffer (l : Bool) : (s.driveTx l).txBuffer = s.txBuffer := rfl
@[simp] theorem driveTx_txPhase (l : Bool) : (s.driveTx l).txPhase = s.txPhase := rfl
@[simp] theorem driveTx_txIndex (l : Bool) : (s.driveTx l).txIndex = s.txIndex := rfl
@[simp] theorem driveTx_waitArmed (l : Bool) : (s.driveTx l).waitArmed = s.waitArmed := rfl
@[simp] theorem driveTx_waitT0 (l : Bool) : (s.driveTx l).waitT0 = s.waitT0 := rfl
@[simp] theorem driveTx_inited (l : Bool) : (s.driveTx l).inited = s.inited := rfl
@[simp] theorem driveTx_irqEnabled (l : Bool) : (s.driveTx l).irqEnabled = s.irqEnabled := rfl
@[simp] theorem driveTx_txe (l : Bool) : (s.driveTx l).txe = s.txe := rfl
@[simp] theorem driveTx_tdr (l : Bool) : (s.driveTx l).tdr = s.tdr := rfl
@[simp] theorem driveTx_uartCfg (l : Bool) : (s.driveTx l).uartCfg = s.uartCfg := rfl
@[simp] theorem driveTx_rxPinMode (l : Bool) : (s.driveTx l).rxPinMode = s.rxPinMode := rfl
@[simp] theorem driveTx_txPinMode (l : Bool) : (s.driveTx l).txPinMode = s.txPinMode := rfl
@[simp] theorem driveTx_txLevel (l : Bool) : (s.driveTx l).txLevel = l := rfl
@[simp] theorem driveTx_dirPinMode (l : Bool) : (s.driveTx l).dirPinMode = s.dirPinMode := rfl
@[simp] theorem driveTx_dirLevel (l : Bool) : (s.driveTx l).dirLevel = s.dirLevel := rfl
@[simp] theorem driveTx_cyc (l : Bool) : (s.driveTx l).cyc = s.cyc := rfl
@[simp] theorem driveTx_now (l : Bool) : (s.driveTx l).now = s.now := rfl
@[simp] theorem driveTx_wireLog (l : Bool) : (s.driveTx l).wireLog = s.wireLog ++ [⟨s.now, .level l⟩] := rfl
@[simp] theorem driveTx_trace (l : Bool) : (s.driveTx l).trace = s.trace := rfl
@[simp] theorem driveTx_cfgInput (l : Bool) : (s.driveTx l).cfgInput = s.cfgInput := rfl
@[simp] theorem driveTx_ret (l : Bool) : (s.driveTx l).ret = s.ret := rfl
@[simp] theorem driveTx_freeCount (l : Bool) : (s.driveTx l).freeCount = s.freeCount := rfl

/-! ### loadTdr -/

@[simp] theorem loadTdr_params (b : Byte) : (s.loadTdr b).params = s.params := rfl
@[simp] theorem loadTdr_cfg (b : Byte) : (s.loadTdr b).cfg = s.cfg := rfl
@[simp] theorem loadTdr_rxBuffer (b : Byte) : (s.loadTdr b).rxBuffer = s.rxBuffer := rfl
@[simp] theorem loadTdr_rxPosition (b : Byte) : (s.loadTdr b).rxPosition = s.rxPosition := rfl
@[simp] theorem loadTdr_rxReady (b : Byte) : (s.loadTdr b).rxReady = s.rxReady := rfl
@[simp] theorem loadTdr_txBuffer (b : Byte) : (s.loadTdr b).txBuffer = s.txBuffer := rfl
@[simp] theorem loadTdr_txPhase (b : Byte) : (s.loadTdr b).txPhase = s.txPhase := rfl
@[simp] theorem loadTdr_txIndex (b : Byte) : (s.loadTdr b).txIndex = s.txIndex := rfl
@[simp] theorem loadTdr_waitArmed (b : Byte) : (s.loadTdr b).waitArmed = s.waitArmed := rfl
@[simp] theorem loadTdr_waitT0 (b : Byte) : (s.loadTdr b).waitT0 = s.waitT0 := rfl
@[simp] theorem loadTdr_inited (b : Byte) : (s.loadTdr b).inited = s.inited := rfl
@[simp] theorem loadTdr_irqEnabled (b : Byte) : (s.loadTdr b).irqEnabled = s.irqEnabled := rfl
@[simp] theorem loadTdr_txe (b : Byte) : (s.loadTdr b).txe = false := rfl
@[simp] theorem loadTdr_tdr (b : Byte) : (s.loadTdr b).tdr = b := rfl
@[simp] theorem loadTdr_uartCfg (b : Byte) : (s.loadTdr b).uartCfg = s.uartCfg := rfl
@[simp] theorem loadTdr_rxPinMode (b : Byte) : (s.loadTdr b).rxPinMode = s.rxPinMode := rfl
@[simp] theorem loadTdr_txPinMode (b : Byte) : (s.loadTdr b).txPinMode = s.txPinMode := rfl
@[simp] theorem loadTdr_txLevel (b : Byte) : (s.loadTdr b).txLevel = s.txLevel := rfl
@[simp] theorem loadTdr_dirPinMode (b : Byte) : (s.loadTdr b).dirPinMode = s.dirPinMode := rfl
@[simp] theorem loadTdr_dirLevel (b : Byte) : (s.loadTdr b).dirLevel = s.dirLevel := rfl
@[simp] theorem loadTdr_cyc (b : Byte) : (s.loadTdr b).cyc = s.cyc := rfl
@[simp] theorem loadTdr_now (b : Byte) : (s.loadTdr b).now = s.now := rfl
@[simp] theorem loadTdr_wireLog (b : Byte) : (s.loadTdr b).wireLog = s.wireLog := rfl
@[simp] theorem loadTdr_trace (b : Byte) : (s.loadTdr b).trace = s.trace := rfl
@[simp] theorem loadTdr_cfgInput (b : Byte) : (s.loadTdr b).cfgInput = s.cfgInput := rfl
@[simp] theorem loadTdr_ret (b : Byte) : (s.loadTdr b).ret = s.ret := rfl
@[simp] theorem loadTdr_freeCount (b : Byte) : (s.loadTdr b).freeCount = s.freeCount := rfl

/-! ### advance -/

@[simp] theorem advance_params (n : Nat) : (s.advance n).params = s.params := rfl
@[simp] theorem advance_cfg (n : Nat) : (s.advance n).cfg = s.cfg := rfl
@[simp] theorem advance_rxBuffer (n : Nat) : (s.advance n).rxBuffer = s.rxBuffer := rfl
@[simp] theorem advance_rxPosition (n : Nat) : (s.advance n).rxPosition = s.rxPosition := rfl
@[simp] theorem advance_rxReady (n : Nat) : (s.advance n).rxReady = s.rxReady := rfl
@[simp] theorem advance_txBuffer (n : Nat) : (s.advance n).txBuffer = s.txBuffer := rfl
@[simp] theorem advance_txPhase (n : Nat) : (s.advance n).txPhase = s.txPhase := rfl
@[simp] theorem advance_txIndex (n : Nat) : (s.advance n).txIndex = s.txIndex := rfl
@[simp] theorem advance_waitArmed (n : Nat) : (s.advance n).waitArmed = s.waitArmed := rfl
@[simp] theorem advance_waitT0 (n : Nat) : (s.advance n).waitT0 = s.waitT0 := rfl
@[simp] theorem advance_inited (n : Nat) : (s.advance n).inited = s.inited := rfl
@[simp] theorem advance_irqEnabled (n : Nat) : (s.advance n).irqEnabled = s.irqEnabled := rfl
@[simp] theorem advance_txe (n : Nat) : (s.advance n).txe = s.txe := rfl
@[simp] theorem advance_tdr (n : Nat) : (s.advance n).tdr = s.tdr := rfl
@[simp] theorem advance_uartCfg (n : Nat) : (s.advance n).uartCfg = s.uartCfg := rfl
@[simp] theorem advance_rxPinMode (n : Nat) : (s.advance n).rxPinMode = s.rxPinMode := rfl
@[simp] theorem advance_txPinMode (n : Nat) : (s.advance n).txPinMode = s.txPinMode := rfl
@[simp] theorem advance_txLevel (n : Nat) : (s.advance n).txLevel = s.txLevel := rfl
@[simp] theorem advance_dirPinMode (n : Nat) : (s.advance n).dirPinMode = s.dirPinMode := rfl
@[simp] theorem advance_dirLevel (n : Nat) : (s.advance n).dirLevel = s.dirLevel := rfl
@[simp] theorem advance_cyc (n : Nat) : (s.advance n).cyc = (s.cyc + n) % modulus s.params := rfl
@[simp] theorem advance_now (n : Nat) : (s.advance n).now = s.now + n := rfl
@[simp] theorem advance_wireLog (n : Nat) : (s.advance n).wireLog = s.wireLog := rfl
@[simp] theorem advance_trace (n : Nat) : (s.advance n).trace = s.trace := rfl
@[simp] theorem advance_cfgInput (n : Nat) : (s.advance n).cfgInput = s.cfgInput := rfl
@[simp] theorem advance_ret (n : Nat) : (s.advance n).ret = s.ret := rfl
@[simp] theorem advance_freeCount (n : Nat) : (s.advance n).freeCount = s.freeCount := rfl

/-! ### armWait -/

@[simp] theorem armWait_params : s.armWait.params = s.params := rfl
@[simp] theorem armWait_cfg : s.armWait.cfg = s.cfg := rfl
@[simp] theorem armWait_rxBuffer : s.armWait.rxBuffer = s.rxBuffer := rfl
@[simp] theorem armWait_rxPosition : s.armWait.rxPosition = s.rxPosition := rfl
@[simp] theorem armWait_rxReady : s.armWait.rxReady = s.rxReady := rfl
@[simp] theorem armWait_txBuffer : s.armWait.txBuffer = s.txBuffer := rfl
@[simp] theorem armWait_txPhase : s.armWait.txPhase = s.txPhase := rfl
@[simp] theorem armWait_txIndex : s.armWait.txIndex = s.txIndex := rfl
@[simp] theorem armWait_waitArmed : s.armWait.waitArmed = true := rfl
@[simp] theorem armWait_waitT0 : s.armWait.waitT0 = s.cyc := rfl
@[simp] theorem armWait_inited : s.armWait.inited = s.inited := rfl
@[simp] theorem armWait_irqEnabled : s.armWait.irqEnabled = s.irqEnabled := rfl
@[simp] theorem armWait_txe : s.armWait.txe = s.txe := rfl
@[simp] theorem armWait_tdr : s.armWait.tdr = s.tdr := rfl
@[simp] theorem armWait_uartCfg : s.armWait.uartCfg = s.uartCfg := rfl
@[simp] theorem armWait_rxPinMode : s.armWait.rxPinMode = s.rxPinMode := rfl
@[simp] theorem armWait_txPinMode : s.armWait.txPinMode = s.txPinMode := rfl
@[simp] theorem armWait_txLevel : s.armWait.txLevel = s.txLevel := rfl
@[simp] theorem armWait_dirPinMode : s.armWait.dirPinMode = s.dirPinMode := rfl
@[simp] theorem armWait_dirLevel : s.armWait.dirLevel = s.dirLevel := rfl
@[simp] theorem armWait_cyc : s.armWait.cyc = s.cyc := rfl
@[simp] theorem armWait_now : s.armWait.now = s.now := rfl
@[simp] theorem armWait_wireLog : s.armWait.wireLog = s.wireLog := rfl
@[simp] theorem armWait_trace : s.armWait.trace = s.trace := rfl
@[simp] theorem armWait_cfgInput : s.armWait.cfgInput = s.cfgInput := rfl
@[simp] theorem armWait_ret : s.armWait.ret = s.ret := rfl
@[simp] theorem armWait_freeCount : s.armWait.freeCount = s.freeCount := rfl

/-! ### disarmWait -/

@[simp] theorem disarmWait_params : s.disarmWait.params = s.params := rfl
@[simp] theorem disarmWait_cfg : s.disarmWait.cfg = s.cfg := rfl
@[simp] theorem disarmWait_rxBuffer : s.disarmWait.rxBuffer = s.rxBuffer := rfl
@[simp] theorem disarmWait_rxPosition : s.disarmWait.rxPosition = s.rxPosition := rfl
@[simp] theorem disarmWait_rxReady : s.disarmWait.rxReady = s.rxReady := rfl
@[simp] theorem disarmWait_txBuffer : s.disarmWait.txBuffer = s.txBuffer := rfl
@[simp] theorem disarmWait_txPhase : s.disarmWait.txPhase = s.txPhase := rfl
@[simp] theorem disarmWait_txIndex : s.disarmWait.txIndex = s.txIndex := rfl
@[simp] theorem disarmWait_waitArmed : s.disarmWait.waitArmed = false := rfl
@[simp] theorem disarmWait_waitT0 : s.disarmWait.waitT0 = s.waitT0 := rfl
@[simp] theorem disarmWait_inited : s.disarmWait.inited = s.inited := rfl
@[simp] theorem disarmWait_irqEnabled : s.disarmWait.irqEnabled = s.irqEnabled := rfl
@[simp] theorem disarmWait_txe : s.disarmWait.txe = s.txe := rfl
@[simp] theorem disarmWait_tdr : s.disarmWait.tdr = s.tdr := rfl
@[simp] theorem disarmWait_uartCfg : s.disarmWait.uartCfg = s.uartCfg := rfl
@[simp] theorem disarmWait_rxPinMode : s.disarmWait.rxPinMode = s.rxPinMode := rfl
@[simp] theorem disarmWait_txPinMode : s.disarmWait.txPinMode = s.txPinMode := rfl
@[simp] theorem disarmWait_txLevel : s.disarmWait.txLevel = s.txLevel := rfl
@[simp] theorem disarmWait_dirPinMode : s.disarmWait.dirPinMode = s.dirPinMode := rfl
@[simp] theorem disarmWait_dirLevel : s.disarmWait.dirLevel = s.dirLevel := rfl
@[simp] theorem disarmWait_cyc : s.disarmWait.cyc = s.cyc := rfl
@[simp] theorem disarmWait_now : s.disarmWait.now = s.now := rfl
@[simp] theorem disarmWait_wireLog : s.disarmWait.wireLog = s.wireLog := rfl
@[simp] theorem disarmWait_trace : s.disarmWait.trace = s.trace := rfl
@[simp] theorem disarmWait_cfgInput : s.disarmWait.cfgInput = s.cfgInput := rfl
@[simp] theorem disarmWait_ret : s.disarmWait.ret = s.ret := rfl
@[simp] theorem disarmWait_freeCount : s.disarmWait.freeCount = s.freeCount := rfl

/-! ### setTrace -/

@[simp] theorem setTrace_params (ws : List OpWord) : (s.setTrace ws).params = s.params := rfl
@[simp] theorem setTrace_cfg (ws : List OpWord) : (s.setTrace ws).cfg = s.cfg := rfl
@[simp] theorem setTrace_rxBuffer (ws : List OpWord) : (s.setTrace ws).rxBuffer = s.rxBuffer := rfl
@[simp] theorem setTrace_rxPosition (ws : List OpWord) : (s.setTrace ws).rxPosition = s.rxPosition := rfl
@[simp] theorem setTrace_rxReady (ws : List OpWord) : (s.setTrace ws).rxReady = s.rxReady := rfl
@[simp] theorem setTrace_txBuffer (ws : List OpWord) : (s.setTrace ws).txBuffer = s.txBuffer := rfl
@[simp] theorem setTrace_txPhase (ws : List OpWord) : (s.setTrace ws).txPhase = s.txPhase := rfl
@[simp] theorem setTrace_txIndex (ws : List OpWord) : (s.setTrace ws).txIndex = s.txIndex := rfl
@[simp] theorem setTrace_waitArmed (ws : List OpWord) : (s.setTrace ws).waitArmed = s.waitArmed := rfl
@[simp] theorem setTrace_waitT0 (ws : List OpWord) : (s.setTrace ws).waitT0 = s.waitT0 := rfl
@[simp] theorem setTrace_inited (ws : List OpWord) : (s.setTrace ws).inited = s.inited := rfl
@[simp] theorem setTrace_irqEnabled (ws : List OpWord) : (s.setTrace ws).irqEnabled = s.irqEnabled := rfl
@[simp] theorem setTrace_txe (ws : List OpWord) : (s.setTrace ws).txe = s.txe := rfl
@[simp] theorem setTrace_tdr (ws : List OpWord) : (s.setTrace ws).tdr = s.tdr := rfl
@[simp] theorem setTrace_uartCfg (ws : List OpWord) : (s.setTrace ws).uartCfg = s.uartCfg := rfl
@[simp] theorem setTrace_rxPinMode (ws : List OpWord) : (s.setTrace ws).rxPinMode = s.rxPinMode := rfl
@[simp] theorem setTrace_txPinMode (ws : List OpWord) : (s.setTrace ws).txPinMode = s.txPinMode := rfl
@[simp] theorem setTrace_txLevel (ws : List OpWord) : (s.setTrace ws).txLevel = s.txLevel := rfl
@[simp] theorem setTrace_dirPinMode (ws : List OpWord) : (s.setTrace ws).dirPinMode = s.dirPinMode := rfl
@[simp] theorem setTrace_dirLevel (ws : List OpWord) : (s.setTrace ws).dirLevel = s.dirLevel := rfl
@[simp] theorem setTrace_cyc (ws : List OpWord) : (s.setTrace ws).cyc = s.cyc := rfl
@[simp] theorem setTrace_now (ws : List OpWord) : (s.setTrace ws).now = s.now := rfl
@[simp] theorem setTrace_wireLog (ws : List OpWord) : (s.setTrace ws).wireLog = s.wireLog := rfl
@[simp] theorem setTrace_trace (ws : List OpWord) : (s.setTrace ws).trace = ws := rfl
@[simp] theorem setTrace_cfgInput (ws : List OpWord) : (s.setTrace ws).cfgInput = s.cfgInput := rfl
@[simp] theorem setTrace_ret (ws : List OpWord) : (s.setTrace ws).ret = s.ret := rfl
@[simp] theorem setTrace_freeCount (ws : List OpWord) : (s.setTrace ws).freeCount = s.freeCount := rfl

/-! ### setRxReady -/

@[simp] theorem setRxReady_params (b : Bool) : (s.setRxReady b).params = s.params := rfl
@[simp] theorem setRxReady_cfg (b : Bool) : (s.setRxReady b).cfg = s.cfg := rfl
@[simp] theorem setRxReady_rxBuffer (b : Bool) : (s.setRxReady b).rxBuffer = s.rxBuffer := rfl
@[simp] theorem setRxReady_rxPosition (b : Bool) : (s.setRxReady b).rxPosition = s.rxPosition := rfl
@[simp] theorem setRxReady_rxReady (b : Bool) : (s.setRxReady b).rxReady = b := rfl
@[simp] theorem setRxReady_txBuffer (b : Bool) : (s.setRxReady b).txBuffer = s.txBuffer := rfl
@[simp] theorem setRxReady_txPhase (b : Bool) : (s.setRxReady b).txPhase = s.txPhase := rfl
@[simp] theorem setRxReady_txIndex (b : Bool) : (s.setRxReady b).txIndex = s.txIndex := rfl
@[simp] theorem setRxReady_waitArmed (b : Bool) : (s.setRxReady b).waitArmed = s.waitArmed := rfl
@[simp] theorem setRxReady_waitT0 (b : Bool) : (s.setRxReady b).waitT0 = s.waitT0 := rfl
@[simp] theorem setRxReady_inited (b : Bool) : (s.setRxReady b).inited = s.inited := rfl
@[simp] theorem setRxReady_irqEnabled (b : Bool) : (s.setRxReady b).irqEnabled = s.irqEnabled := rfl
@[simp] theorem setRxReady_txe (b : Bool) : (s.setRxReady b).txe = s.txe := rfl
@[simp] theorem setRxReady_tdr (b : Bool) : (s.setRxReady b).tdr = s.tdr := rfl
@[simp] theorem setRxReady_uartCfg (b : Bool) : (s.setRxReady b).uartCfg = s.uartCfg := rfl
@[simp] theorem setRxReady_rxPinMode (b : Bool) : (s.setRxReady b).rxPinMode = s.rxPinMode := rfl
@[simp] theorem setRxReady_txPinMode (b : Bool) : (s.setRxReady b).txPinMode = s.txPinMode := rfl
@[simp] theorem setRxReady_txLevel (b : Bool) : (s.setRxReady b).txLevel = s.txLevel := rfl
@[simp] theorem setRxReady_dirPinMode (b : Bool) : (s.setRxReady b).dirPinMode = s.dirPinMode := rfl
@[simp] theorem setRxReady_dirLevel (b : Bool) : (s.setRxReady b).dirLevel = s.dirLevel := rfl
@[simp] theorem setRxReady_cyc (b : Bool) : (s.setRxReady b).cyc = s.cyc := rfl
@[simp] theorem setRxReady_now (b : Bool) : (s.setRxReady b).now = s.now := rfl
@[simp] theorem setRxReady_wireLog (b : Bool) : (s.setRxReady b).wireLog = s.wireLog := rfl
@[simp] theorem setRxReady_trace (b : Bool) : (s.setRxReady b).trace = s.trace := rfl
@[simp] theorem setRxReady_cfgInput (b : Bool) : (s.setRxReady b).cfgInput = s.cfgInput := rfl
@[simp] theorem setRxReady_ret (b : Bool) : (s.setRxReady b).ret = s.ret := rfl
@[simp] theorem setRxReady_freeCount (b : Bool) : (s.setRxReady b).freeCount = s.freeCount := rfl

/-! ### setTxe -/

@[simp] theorem setTxe_params : s.setTxe.params = s.params := rfl
@[simp] theorem setTxe_cfg : s.setTxe.cfg = s.cfg := rfl
@[simp] theorem setTxe_rxBuffer : s.setTxe.rxBuffer = s.rxBuffer := rfl
@[simp] theorem setTxe_rxPosition : s.setTxe.rxPosition = s.rxPosition := rfl
@[simp] theorem setTxe_rxReady : s.setTxe.rxReady = s.rxReady := rfl
@[simp] theorem setTxe_txBuffer : s.setTxe.txBuffer = s.txBuffer := rfl
@[simp] theorem setTxe_txPhase : s.setTxe.txPhase = s.txPhase := rfl
@[simp] theorem setTxe_txIndex : s.setTxe.txIndex = s.txIndex := rfl
@[simp] theorem setTxe_waitArmed : s.setTxe.waitArmed = s.waitArmed := rfl
@[simp] theorem setTxe_waitT0 : s.setTxe.waitT0 = s.waitT0 := rfl
@[simp] theorem setTxe_inited : s.setTxe.inited = s.inited := rfl
@[simp] theorem setTxe_irqEnabled : s.setTxe.irqEnabled = s.irqEnabled := rfl
@[simp] theorem setTxe_txe : s.setTxe.txe = true := rfl
@[simp] theorem setTxe_tdr : s.setTxe.tdr = s.tdr := rfl
@[simp] theorem setTxe_uartCfg : s.setTxe.uartCfg = s.uartCfg := rfl
@[simp] theorem setTxe_rxPinMode : s.setTxe.rxPinMode = s.rxPinMode := rfl
@[simp] theorem setTxe_txPinMode : s.setTxe.txPinMode = s.txPinMode := rfl
@[simp] theorem setTxe_txLevel : s.setTxe.txLevel = s.txLevel := rfl
@[simp] theorem setTxe_dirPinMode : s.setTxe.dirPinMode = s.dirPinMode := rfl
@[simp] theorem setTxe_dirLevel : s.setTxe.dirLevel = s.dirLevel := rfl
@[simp] theorem setTxe_cyc : s.setTxe.cyc = s.cyc := rfl
@[simp] theorem setTxe_now : s.setTxe.now = s.now := rfl
@[simp] theorem setTxe_wireLog : s.setTxe.wireLog = s.wireLog := rfl
@[simp] theorem setTxe_trace : s.setTxe.trace = s.trace := rfl
@[simp] theorem setTxe_cfgInput : s.setTxe.cfgInput = s.cfgInput := rfl
@[simp] theorem setTxe_ret : s.setTxe.ret = s.ret := rfl
@[simp] theorem setTxe_freeCount : s.setTxe.freeCount = s.freeCount := rfl

/-! ### setIrqEnabled -/

@[simp] theorem setIrqEnabled_params : s.setIrqEnabled.params = s.params := rfl
@[simp] theorem setIrqEnabled_cfg : s.setIrqEnabled.cfg = s.cfg := rfl
@[simp] theorem setIrqEnabled_rxBuffer : s.setIrqEnabled.rxBuffer = s.rxBuffer := rfl
@[simp] theorem setIrqEnabled_rxPosition : s.setIrqEnabled.rxPosition = s.rxPosition := rfl
@[simp] theorem setIrqEnabled_rxReady : s.setIrqEnabled.rxReady = s.rxReady := rfl
@[simp] theorem setIrqEnabled_txBuffer : s.setIrqEnabled.txBuffer = s.txBuffer := rfl
@[simp] theorem setIrqEnabled_txPhase : s.setIrqEnabled.txPhase = s.txPhase := rfl
@[simp] theorem setIrqEnabled_txIndex : s.setIrqEnabled.txIndex = s.txIndex := rfl
@[simp] theorem setIrqEnabled_waitArmed : s.setIrqEnabled.waitArmed = s.waitArmed := rfl
@[simp] theorem setIrqEnabled_waitT0 : s.setIrqEnabled.waitT0 = s.waitT0 := rfl
@[simp] theorem setIrqEnabled_inited : s.setIrqEnabled.inited = s.inited := rfl
@[simp] theorem setIrqEnabled_irqEnabled : s.setIrqEnabled.irqEnabled = true := rfl
@[simp] theorem setIrqEnabled_txe : s.setIrqEnabled.txe = s.txe := rfl
@[simp] theorem setIrqEnabled_tdr : s.setIrqEnabled.tdr = s.tdr := rfl
@[simp] theorem setIrqEnabled_uartCfg : s.setIrqEnabled.uartCfg = s.uartCfg := rfl
@[simp] theorem setIrqEnabled_rxPinMode : s.setIrqEnabled.rxPinMode = s.rxPinMode := rfl
@[simp] theorem setIrqEnabled_txPinMode : s.setIrqEnabled.txPinMode = s.txPinMode := rfl
@[simp] theorem setIrqEnabled_txLevel : s.setIrqEnabled.txLevel = s.txLevel := rfl
@[simp] theorem setIrqEnabled_dirPinMode : s.setIrqEnabled.dirPinMode = s.dirPinMode := rfl
@[simp] theorem setIrqEnabled_dirLevel : s.setIrqEnabled.dirLevel = s.dirLevel := rfl
@[simp] theorem setIrqEnabled_cyc : s.setIrqEnabled.cyc = s.cyc := rfl
@[simp] theorem setIrqEnabled_now : s.setIrqEnabled.now = s.now := rfl
@[simp] theorem setIrqEnabled_wireLog : s.setIrqEnabled.wireLog = s.wireLog := rfl
@[simp] theorem setIrqEnabled_trace : s.setIrqEnabled.trace = s.trace := rfl
@[simp] theorem setIrqEnabled_cfgInput : s.setIrqEnabled.cfgInput = s.cfgInput := rfl
@[simp] theorem setIrqEnabled_ret : s.setIrqEnabled.ret = s.ret := rfl
@[simp] theorem setIrqEnabled_freeCount : s.setIrqEnabled.freeCount = s.freeCount := rfl

end Sys2Proof.Machine.State
end

