-- ==== Sys2Proof/Laws/Memory.lean ====
section
/-!
SUPPORT. The laws of the index spaces: a write is read back, it leaves every other index alone, and it
keeps the canonical form and the bound of the space; an empty list is canonical, so `State.reset` and
`INIT` have it.
-/

namespace Sys2Proof.Machine

namespace Memory

@[simp] theorem read_nil (i : Nat) : Memory.read [] i = 0 := rfl

theorem read_cons (c : Host.Cell) (m : Memory) (i : Nat) :
    Memory.read (c :: m) i = if c.1 = i then c.2 else Memory.read m i := rfl

theorem rising_cons (lo : Option Nat) (c : Host.Cell) (m : Memory) :
    Memory.rising lo (c :: m) = true ↔
      Memory.above lo c.1 = true ∧ c.2 ≠ 0 ∧ Memory.rising (some c.1) m = true := by
  simp [Memory.rising, and_assoc]

@[simp] theorem above_none (i : Nat) : Memory.above none i = true := rfl

@[simp] theorem above_some (a i : Nat) : Memory.above (some a) i = true ↔ a < i := by
  simp [Memory.above]

/-- A bound holds of every larger index. -/
theorem above_mono {lo : Option Nat} {i j : Nat} (h : Memory.above lo i = true) (hij : i ≤ j) :
    Memory.above lo j = true := by
  cases lo with
  | none => rfl
  | some a => rw [above_some] at h ⊢; omega

/-- An index at or below the lower bound of a rising list is not listed. -/
theorem read_below {m : Memory} {lo i : Nat} (h : Memory.rising (some lo) m = true) (hi : i ≤ lo) :
    Memory.read m i = 0 := by
  induction m generalizing lo with
  | nil => rfl
  | cons c m ih =>
    rw [rising_cons, above_some] at h
    rw [read_cons, if_neg (by omega)]
    exact ih h.2.2 (by omega)

/-- A list that rises above an index rises above any bound of that index. -/
theorem rising_lower {m : Memory} {lo : Option Nat} {i : Nat} (h : Memory.rising (some i) m = true)
    (hlo : Memory.above lo i = true) : Memory.rising lo m = true := by
  cases m with
  | nil => rfl
  | cons c m =>
    rw [rising_cons, above_some] at h
    exact (rising_cons ..).2 ⟨above_mono hlo (by omega), h.2⟩

/-- A write above the bound keeps a list rising. -/
theorem rising_write {m : Memory} {lo : Option Nat} (i : Nat) (b : Byte)
    (h : Memory.rising lo m = true) (hlo : Memory.above lo i = true) :
    Memory.rising lo (m.write i b) = true := by
  induction m generalizing lo with
  | nil =>
    unfold Memory.write
    split
    · rfl
    · exact (rising_cons ..).2 ⟨hlo, ‹_›, rfl⟩
  | cons c m ih =>
    obtain ⟨hc, hne, htail⟩ := (rising_cons ..).1 h
    unfold Memory.write
    split
    · split
      · exact h
      · exact (rising_cons ..).2
          ⟨hlo, ‹_›, (rising_cons ..).2 ⟨(above_some ..).2 ‹_›, hne, htail⟩⟩
    · split
      · rename_i heq
        split
        · exact rising_lower htail hc
        · exact (rising_cons ..).2 ⟨hlo, ‹_›, heq ▸ htail⟩
      · exact (rising_cons ..).2 ⟨hc, hne, ih htail ((above_some ..).2 (by omega))⟩

/-- Every write keeps the canonical form. -/
theorem wf_write {m : Memory} (i : Nat) (b : Byte) (h : m.wf = true) : (m.write i b).wf = true :=
  rising_write i b h rfl

theorem within_cons (c : Host.Cell) (m : Memory) (n : Nat) :
    Memory.within (c :: m) n = true ↔ c.1 < n ∧ Memory.within m n = true := by
  simp [Memory.within]

/-- Every write below the capacity keeps the bound of the space. -/
theorem within_write {m : Memory} {n i : Nat} (b : Byte) (h : m.within n = true) (hi : i < n) :
    (m.write i b).within n = true := by
  induction m with
  | nil => unfold Memory.write; split <;> simp [Memory.within, hi]
  | cons c m ih =>
    obtain ⟨hc, htail⟩ := (within_cons ..).1 h
    unfold Memory.write
    split
    · split
      · exact h
      · exact (within_cons ..).2 ⟨hi, h⟩
    · split
      · split
        · exact htail
        · exact (within_cons ..).2 ⟨hi, htail⟩
      · exact (within_cons ..).2 ⟨hc, ih htail⟩

/-- In a rising list a write is read back. -/
theorem read_write_same_rising {m : Memory} {lo : Option Nat} (i : Nat) (b : Byte)
    (h : Memory.rising lo m = true) : (m.write i b).read i = b := by
  induction m generalizing lo with
  | nil =>
    unfold Memory.write
    split <;> simp_all [Memory.read]
  | cons c m ih =>
    obtain ⟨-, -, htail⟩ := (rising_cons ..).1 h
    unfold Memory.write
    split
    · rename_i hlt
      split
      · rename_i hb
        rw [read_cons, if_neg (by omega), hb]
        exact read_below htail (by omega)
      · simp [Memory.read]
    · split
      · rename_i heq
        split
        · rename_i hb
          rw [hb]
          exact read_below htail (by omega)
        · simp [Memory.read]
      · rw [read_cons, if_neg (by omega)]
        exact ih htail

/-- A write is read back. -/
theorem read_write_same {m : Memory} (i : Nat) (b : Byte) (h : m.wf = true) :
    (m.write i b).read i = b :=
  read_write_same_rising i b h

/-- A write leaves every other index alone. -/
theorem read_write_other (m : Memory) {i j : Nat} (b : Byte) (h : j ≠ i) :
    (m.write i b).read j = m.read j := by
  induction m with
  | nil => unfold Memory.write; split <;> simp [Memory.read, Ne.symm h]
  | cons c m ih =>
    unfold Memory.write
    split
    · split <;> simp [Memory.read, Ne.symm h]
    · split
      · rename_i heq
        split <;> simp [Memory.read, ← heq, Ne.symm h]
      · simp only [read_cons, ih]

end Memory

namespace State

variable (s : State)

@[simp] theorem memRead_rxb (i : Nat) : s.memRead .rxb i = s.rxBuffer.read i := rfl

@[simp] theorem memRead_txb (i : Nat) : s.memRead .txb i = s.txBuffer.read i := rfl

@[simp] theorem memWrite_rxb (i : Nat) (v : Byte) :
    s.memWrite .rxb i v = s.setRxBuffer (s.rxBuffer.write i v) := rfl

@[simp] theorem memWrite_txb (i : Nat) (v : Byte) :
    s.memWrite .txb i v = s.setTxBuffer (s.txBuffer.write i v) := rfl

@[simp] theorem capacity_rxb : s.capacity .rxb = s.params.rxCapacity := rfl

@[simp] theorem capacity_txb : s.capacity .txb = s.params.txCapacity := rfl

end State

/-- The power-on state's buffers are canonical. -/
theorem reset_buffers_wf : State.reset.rxBuffer.wf = true ∧ State.reset.txBuffer.wf = true := by
  decide

end Sys2Proof.Machine
end

