-- ==== Sys2Proof/Laws/Ops.lean ====
section
/-!
SUPPORT. One lemma per shared operation, which says once everything the operation can do: the admission
checks, the handler invocation, the busy-wait and the pulse, the slot store and the byte load, the fetch
and the step.
-/

namespace Sys2Proof.Machine

variable {s t : State} {k : Result}

/-! ### Admission -/

theorem whenInited_admitted (hi : s.inited = true) : whenInited s k = k := by
  simp [whenInited, hi]

theorem whenInited_next (h : whenInited s k = .next t) : s.inited = true ∧ k = .next t := by
  unfold whenInited at h
  split at h
  · cases h
  · exact ⟨by simpa using ‹¬s.inited = false›, h⟩

theorem foregroundOp_admitted (hi : s.inited = true) (hp : s.txPhase = .idle) :
    foregroundOp s k = k := by
  simp [foregroundOp, whenInited_admitted hi, hp]

/-- A foreground operation that answers a next state was admitted. -/
theorem foregroundOp_next (h : foregroundOp s k = .next t) :
    s.inited = true ∧ s.txPhase = .idle ∧ k = .next t := by
  obtain ⟨hi, h⟩ := whenInited_next h
  split at h
  · exact ⟨hi, ‹_›, h⟩
  · cases h

/-- An indexed access that answers a next state had its index inside the space. -/
theorem withIndex_next {b : Buffer} {idx : Nat} (h : withIndex s b idx k = .next t) :
    idx < s.capacity b ∧ k = .next t := by
  unfold withIndex at h
  split at h
  · exact ⟨‹_›, h⟩
  · cases h

theorem withIndex_inside {b : Buffer} {idx : Nat} (h : idx < s.capacity b) :
    withIndex s b idx k = k := by
  simp [withIndex, h]

/-! ### The receive interrupt -/

theorem takeInterrupt_delivered {body : State → State} (he : s.irqEnabled = true)
    (hi : s.inited = true) : takeInterrupt body s = .next (body s) := by
  simp [takeInterrupt, he, hi, interruptEntry, interruptReturn]

theorem takeInterrupt_lost {body : State → State} (he : s.irqEnabled = false) :
    takeInterrupt body s = .next s := by
  simp [takeInterrupt, he]

/-- An invocation that answers a next state either lost its event, changing nothing, or ran the whole
body. -/
theorem takeInterrupt_next {body : State → State} (h : takeInterrupt body s = .next t) :
    (s.irqEnabled = false ∧ t = s) ∨
    (s.irqEnabled = true ∧ s.inited = true ∧ t = body s) := by
  cases he : s.irqEnabled with
  | false =>
    rw [takeInterrupt_lost he] at h
    exact .inl ⟨rfl, by cases h; rfl⟩
  | true =>
    cases hi : s.inited with
    | false => simp [takeInterrupt, he, hi] at h
    | true =>
      rw [takeInterrupt_delivered he hi] at h
      exact .inr ⟨rfl, rfl, by cases h; rfl⟩

/-- What a data byte does: stored, stored as the last slot, or dropped. -/
theorem storeSlot_cases (data : Byte) (s : State) :
    (s.rxPosition + 1 < s.params.rxCapacity ∧ s.rxReady = false ∧
      storeSlot data s =
        (s.setRxBuffer (s.rxBuffer.write s.rxPosition data)).setRxPosition (s.rxPosition + 1)) ∨
    (s.rxPosition + 1 = s.params.rxCapacity ∧ s.rxReady = false ∧
      storeSlot data s =
        ((s.setRxBuffer (s.rxBuffer.write s.rxPosition data)).setRxPosition
          (s.rxPosition + 1)).setRxReady true) ∨
    ((s.params.rxCapacity ≤ s.rxPosition ∨ s.rxReady = true) ∧ storeSlot data s = s) := by
  unfold storeSlot
  split
  · rename_i h
    simp only [State.capacity_rxb] at h
    by_cases hlast : s.rxPosition + 1 = s.params.rxCapacity
    · exact .inr (.inl ⟨hlast, h.2, by simp [hlast]⟩)
    · exact .inl ⟨by omega, h.2, by simp [hlast]⟩
  · rename_i h
    simp only [State.capacity_rxb, not_and, Bool.not_eq_false] at h
    refine .inr (.inr ⟨?_, rfl⟩)
    by_cases hp : s.rxPosition < s.params.rxCapacity
    · exact .inr (h hp)
    · exact .inl (by omega)

/-- What a data byte may change. -/
theorem storeSlot_frame (data : Byte) (s : State) :
    storeSlot data s =
      { s with
        rxBuffer := (storeSlot data s).rxBuffer
        rxPosition := (storeSlot data s).rxPosition
        rxReady := (storeSlot data s).rxReady } := by
  rcases storeSlot_cases data s with ⟨_, _, h⟩ | ⟨_, _, h⟩ | ⟨_, h⟩ <;> rw [h] <;> rfl

/-! ### The counter and the busy-wait -/

theorem modulus_pos (p : Params) : 0 < modulus p := Nat.two_pow_pos _

/-- When a wait begins no cycle of it has elapsed. -/
theorem elapsed_armWait (s : State) (h : s.cyc < modulus s.params) : s.armWait.elapsed = 0 := by
  simp only [State.elapsed, State.armWait_cyc, State.armWait_waitT0, State.armWait_params]
  rw [Nat.mod_eq_of_lt h, Nat.add_sub_of_le h.le, Nat.mod_self]

/-- The counter `k` cycles after a wait began reads `k` as elapsed, wrapped. -/
theorem elapsed_of_cyc {k : Nat} (h : s.cyc = (s.waitT0 + k) % modulus s.params) :
    s.elapsed = k % modulus s.params := by
  have hm := modulus_pos s.params
  have hlt := Nat.mod_lt s.waitT0 hm
  have hdiv := Nat.div_add_mod s.waitT0 (modulus s.params)
  simp only [State.elapsed, h, Nat.mod_add_mod]
  rw [show s.waitT0 + k + (modulus s.params - s.waitT0 % modulus s.params) =
    k + modulus s.params * (s.waitT0 / modulus s.params + 1) by rw [Nat.mul_add]; omega]
  exact Nat.add_mul_mod_self_left _ _ _

/-- A tick adds its cycles to a wait, wrapped. -/
theorem elapsed_advance (s : State) (n : Nat) :
    (s.advance n).elapsed = (s.elapsed + n) % modulus s.params := by
  simp only [State.elapsed, State.advance_cyc, State.advance_waitT0, State.advance_params,
    Nat.mod_add_mod]
  congr 1
  omega

/-- What one turn of a pulse does: begin the wait and drive the level, wait, or end the wait. -/
theorem pulse_cases (n : Nat) (l : Bool) (succ : TxPhase) (s : State) :
    (s.waitArmed = false ∧ pulse n l succ s = s.armWait.driveTx l) ∨
    (s.waitArmed = true ∧ s.elapsed < n ∧ pulse n l succ s = s) ∨
    (s.waitArmed = true ∧ n ≤ s.elapsed ∧ pulse n l succ s = s.disarmWait.setTxPhase succ) := by
  cases ha : s.waitArmed with
  | false => simp [pulse, busyWaitPoll, ha]
  | true =>
    by_cases hn : s.elapsed < n
    · simp [pulse, busyWaitPoll, ha, hn]
    · simp only [pulse, busyWaitPoll, ha, hn, if_false, Bool.true_eq_false]
      simpa using hn

/-- What a turn of a pulse may change. -/
theorem pulse_frame (n : Nat) (l : Bool) (succ : TxPhase) (s : State) :
    pulse n l succ s =
      { s with
        txPhase := (pulse n l succ s).txPhase
        waitArmed := (pulse n l succ s).waitArmed
        waitT0 := (pulse n l succ s).waitT0
        txLevel := (pulse n l succ s).txLevel
        wireLog := (pulse n l succ s).wireLog } := by
  rcases pulse_cases n l succ s with ⟨_, h⟩ | ⟨_, _, h⟩ | ⟨_, _, h⟩ <;> rw [h] <;> rfl

/-- What a byte load does: the next byte, or the last one with the return of `start_tx`. -/
theorem sendByte_cases (s : State) :
    (s.txIndex + 1 ≠ s.params.txCapacity ∧
      sendByte s = (s.loadTdr (s.txBuffer.read s.txIndex)).setTxIndex (s.txIndex + 1)) ∨
    (s.txIndex + 1 = s.params.txCapacity ∧
      sendByte s =
        ((s.loadTdr (s.txBuffer.read s.txIndex)).setTxIndex (s.txIndex + 1)).setTxPhase .idle) := by
  by_cases h : s.txIndex + 1 = s.params.txCapacity <;> simp [sendByte, h]

/-- What a byte load may change. -/
theorem sendByte_frame (s : State) :
    sendByte s =
      { s with
        txPhase := (sendByte s).txPhase
        txIndex := (sendByte s).txIndex
        txe := (sendByte s).txe
        tdr := (sendByte s).tdr } := by
  rcases sendByte_cases s with ⟨_, h⟩ | ⟨_, h⟩ <;> rw [h] <;> rfl

/-! ### The step -/

theorem fetch_cons {w : OpWord} {ws : List OpWord} (h : s.trace = w :: ws) :
    fetch s = some (w, s.setTrace ws) := by
  simp [fetch, h]

theorem fetch_nil (h : s.trace = []) : fetch s = none := by
  simp [fetch, h]

/-- A step that answers a next state had nothing to run, or ran the operation its next word spells. -/
theorem step_next (h : step s = .next t) :
    (s.trace = [] ∧ t = s) ∨
    ∃ w ws i, s.trace = w :: ws ∧ decode (.word w) = .ok i ∧ exec i (s.setTrace ws) = .next t := by
  cases htr : s.trace with
  | nil =>
    simp only [step, fetch_nil htr] at h
    exact .inl ⟨rfl, by cases h; rfl⟩
  | cons w ws =>
    simp only [step, fetch_cons htr] at h
    split at h
    · exact .inr ⟨w, ws, _, rfl, ‹_›, h⟩
    · cases h

end Sys2Proof.Machine
end

