-- ==== Sys2Proof/Laws/Exec.lean ====
section
/-!
SUPPORT. Once and for all, what an operation that answers a next state can have done: `Effect` names the
cases, with the guards the operation passed, and `exec_effect` says that there are no others. Invariants
and frames are proved from it by cases, without unfolding `exec`.
-/

namespace Sys2Proof.Machine

/-- The operations that only return a value; `RXB_LD` of them needs the packet. -/
def returnsOnly (i : Instr) (s : State) : Bool :=
  match i with
  | .pktAvail | .getPkt | .getRxLen | .getTxBuf | .txbLd _ => true
  | .rxbLd _ => s.rxReady
  | .init | .freePkt | .startTx | .txStep | .txbSt _ _ => false
  | .rxIrqBreak _ _ | .rxIrqData _ | .rxIrqNone _ => false
  | .envTick _ | .envTxDrain | .envIrqEn => false
  | .txsPinGpio | .txsIdleHigh | .txsBreakLow | .txsMabHigh | .txsPinAf | .txsSend => false

/-- `i` runs the micro-operation `m` of the phase `p` in `s`: it is `m`, or `TX_STEP` in that phase. -/
def Runs (i m : Instr) (p : TxPhase) (s : State) : Prop :=
  i = m ∨ (i = .txStep ∧ s.inited = true ∧ s.txPhase = p)

/-- What an operation that answers a next state has done. -/
inductive Effect : Instr → State → State → Prop
  | init {s} (hi : s.inited = false) : Effect .init s s.construct
  | returned {i s} (r : Ret) (hi : s.inited = true) (hp : s.txPhase = .idle)
      (hr : returnsOnly i s = true) : Effect i s (s.setRet r)
  | freed {s} (hi : s.inited = true) (hp : s.txPhase = .idle) : Effect .freePkt s (s.setRxReady false)
  | started {s} (hi : s.inited = true) (hp : s.txPhase = .idle) (he : s.txe = true) :
      Effect .startTx s (s.setTxPhase .pinGpio)
  | stored {s} (idx : Nat) (val : Byte) (hi : s.inited = true) (hp : s.txPhase = .idle)
      (hx : idx < s.params.txCapacity) :
      Effect (.txbSt idx val) s (s.setTxBuffer (s.txBuffer.write idx val))
  | lostEvent {i s} (hg : i.agent = .interrupt) (he : s.irqEnabled = false) : Effect i s s
  | broke {s} (rxne : Bool) (data : Byte) (he : s.irqEnabled = true) (hi : s.inited = true) :
      Effect (.rxIrqBreak rxne data) s (s.setRxPosition 0)
  | received {s} (data : Byte) (he : s.irqEnabled = true) (hi : s.inited = true) :
      Effect (.rxIrqData data) s (storeSlot data s)
  | noFlags {s} (data : Byte) (he : s.irqEnabled = true) (hi : s.inited = true) :
      Effect (.rxIrqNone data) s s
  | ticked {s} (n : Nat) : Effect (.envTick n) s (s.advance n)
  | nothingToDrain {s} (hi : s.inited = true) (he : s.txe = true) : Effect .envTxDrain s s
  | drained {s} (hi : s.inited = true) (he : s.txe = false) :
      Effect .envTxDrain s (s.log (.frame s.tdr)).setTxe
  | lineEnabled {s} : Effect .envIrqEn s s.setIrqEnabled
  | pinTaken {i s} (hr : Runs i .txsPinGpio .pinGpio s) :
      Effect i s ((s.switchTxPin .gpio).setTxPhase .idleHigh)
  | idleHigh {i s} (hr : Runs i .txsIdleHigh .idleHigh s) :
      Effect i s (pulse s.params.tIdle true .breakLow s)
  | breakLow {i s} (hr : Runs i .txsBreakLow .breakLow s) :
      Effect i s (pulse s.params.tBreak false .mabHigh s)
  | mabHigh {i s} (hr : Runs i .txsMabHigh .mabHigh s) :
      Effect i s (pulse s.params.tMab true .pinAf s)
  | pinGiven {i s} (hr : Runs i .txsPinAf .pinAf s) :
      Effect i s (((s.switchTxPin .af).setTxIndex 0).setTxPhase .send)
  | sendWaits {i s} (hr : Runs i .txsSend .send s) (he : s.txe = false) : Effect i s s
  | sent {i s} (hr : Runs i .txsSend .send s) (he : s.txe = true)
      (hx : s.txIndex < s.params.txCapacity) : Effect i s (sendByte s)

/-- A value-returning foreground operation that answers a next state has returned a value. -/
theorem effect_of_return {i : Instr} {s t : State} {r : Ret} (h : foregroundOp s (.next (s.setRet r)) = .next t)
    (hr : returnsOnly i s = true) : Effect i s t := by
  obtain ⟨hi, hp, h⟩ := foregroundOp_next h
  cases h
  exact .returned r hi hp hr

/-- `TXS_SEND` that answers a next state waited for `txe` or loaded a byte. -/
theorem effect_of_send {i : Instr} {s t : State} (hr : Runs i .txsSend .send s)
    (h : execTxsSend s = .next t) : Effect i s t := by
  unfold execTxsSend at h
  split at h
  · cases h
    exact .sendWaits hr ‹_›
  · obtain ⟨hx, h⟩ := withIndex_next h
    cases h
    exact .sent hr (by simpa using ‹¬s.txe = false›) hx

/-- A handler invocation that answers a next state lost its event or ran its body. -/
theorem effect_of_interrupt {i : Instr} {s t : State} {body : State → State}
    (h : takeInterrupt body s = .next t) (hg : i.agent = .interrupt)
    (hb : s.irqEnabled = true → s.inited = true → Effect i s (body s)) : Effect i s t := by
  rcases takeInterrupt_next h with ⟨he, rfl⟩ | ⟨he, hi, rfl⟩
  · exact .lostEvent hg he
  · exact hb he hi

/-- `TX_STEP` that answers a next state ran the micro-operation of its phase. -/
theorem effect_of_txStep {s t : State} (h : execTxStep s = .next t) : Effect .txStep s t := by
  obtain ⟨hi, h⟩ := whenInited_next h
  split at h <;> rename_i hp
  · cases h
  · cases h; exact .pinTaken (.inr ⟨rfl, hi, hp⟩)
  · cases h; exact .idleHigh (.inr ⟨rfl, hi, hp⟩)
  · cases h; exact .breakLow (.inr ⟨rfl, hi, hp⟩)
  · cases h; exact .mabHigh (.inr ⟨rfl, hi, hp⟩)
  · cases h; exact .pinGiven (.inr ⟨rfl, hi, hp⟩)
  · exact effect_of_send (.inr ⟨rfl, hi, hp⟩) h

/-- Every operation that answers a next state has done one of the effects. -/
theorem exec_effect {i : Instr} {s t : State} (h : exec i s = .next t) : Effect i s t := by
  cases i with
  | init =>
    change execInit s = _ at h
    unfold execInit at h
    split at h
    · cases h
    · cases h
      exact .init (by simpa using ‹¬s.inited = true›)
  | pktAvail => exact effect_of_return h rfl
  | getPkt => exact effect_of_return h rfl
  | getRxLen => exact effect_of_return h rfl
  | getTxBuf => exact effect_of_return h rfl
  | freePkt =>
    obtain ⟨hi, hp, h⟩ := foregroundOp_next h
    cases h
    exact .freed hi hp
  | startTx =>
    obtain ⟨hi, hp, h⟩ := foregroundOp_next h
    split at h
    · cases h
    · cases h
      exact .started hi hp (by simpa using ‹¬s.txe = false›)
  | txStep => exact effect_of_txStep h
  | rxbLd idx =>
    obtain ⟨hi, hp, h⟩ := foregroundOp_next h
    split at h
    · cases h
    · obtain ⟨-, h⟩ := withIndex_next h
      cases h
      exact .returned _ hi hp (by simpa [returnsOnly] using ‹¬s.rxReady = false›)
  | txbLd idx =>
    obtain ⟨hi, hp, h⟩ := foregroundOp_next h
    obtain ⟨-, h⟩ := withIndex_next h
    cases h
    exact .returned _ hi hp rfl
  | txbSt idx val =>
    obtain ⟨hi, hp, h⟩ := foregroundOp_next h
    obtain ⟨hx, h⟩ := withIndex_next h
    cases h
    exact .stored idx val hi hp hx
  | rxIrqBreak rxne data => exact effect_of_interrupt h rfl (.broke rxne data)
  | rxIrqData data => exact effect_of_interrupt h rfl (.received data)
  | rxIrqNone data => exact effect_of_interrupt h rfl (.noFlags data)
  | envTick n => cases h; exact .ticked n
  | envTxDrain =>
    obtain ⟨hi, h⟩ := whenInited_next h
    split at h
    · cases h; exact .nothingToDrain hi ‹_›
    · cases h; exact .drained hi (by simpa using ‹¬s.txe = true›)
  | envIrqEn => cases h; exact .lineEnabled
  | txsPinGpio => cases h; exact .pinTaken (.inl rfl)
  | txsIdleHigh => cases h; exact .idleHigh (.inl rfl)
  | txsBreakLow => cases h; exact .breakLow (.inl rfl)
  | txsMabHigh => cases h; exact .mabHigh (.inl rfl)
  | txsPinAf => cases h; exact .pinGiven (.inl rfl)
  | txsSend => exact effect_of_send (.inl rfl) h

/-- A step had nothing to run, or has the effect of the operation its word spells, at the state with that
word taken off the trace. -/
theorem step_effect {s t : State} (h : step s = .next t) :
    (s.trace = [] ∧ t = s) ∨
    ∃ w ws i, s.trace = w :: ws ∧ decode (.word w) = .ok i ∧ Effect i (s.setTrace ws) t := by
  rcases step_next h with h | ⟨w, ws, i, hw, hd, h⟩
  · exact .inl h
  · exact .inr ⟨w, ws, i, hw, hd, exec_effect h⟩

end Sys2Proof.Machine
end

