-- ==== Sys2Proof/Laws/Line.lean ====
section
/-!
SUPPORT. The small lemmas of the line's level: what the last `Mode` and `Level` entries of a log are, what
each update of the log does to them, the level where the log tells the pin, and the frames of a transmission.
-/

namespace Sys2Proof.Machine

variable {s : State}

/-! ### The last entries of a log -/

@[simp] theorem lastMode_cons (e : LogEntry) (es : List LogEntry) :
    lastMode (e :: es) = (lastMode es).or e.event.mode? := by
  simp only [lastMode]
  cases lastMode es <;> rfl

@[simp] theorem lastLevel_cons (e : LogEntry) (es : List LogEntry) :
    lastLevel (e :: es) = (lastLevel es).or e.event.level? := by
  simp only [lastLevel]
  cases lastLevel es <;> rfl

@[simp] theorem lastMode_append (a b : List LogEntry) :
    lastMode (a ++ b) = (lastMode b).or (lastMode a) := by
  induction a with
  | nil => simp [lastMode]
  | cons e a ih => simp [ih, Option.or_assoc]

@[simp] theorem lastLevel_append (a b : List LogEntry) :
    lastLevel (a ++ b) = (lastLevel b).or (lastLevel a) := by
  induction a with
  | nil => simp [lastLevel]
  | cons e a ih => simp [ih, Option.or_assoc]

theorem lastMode_eq_none {l : List LogEntry} (h : ∀ e ∈ l, ∀ m, e.event ≠ .mode m) : lastMode l = none := by
  induction l with
  | nil => rfl
  | cons e l ih =>
    obtain ⟨he, hl⟩ := List.forall_mem_cons.mp h
    rw [lastMode_cons, ih hl]
    obtain ⟨n, x⟩ := e
    cases x with
    | mode m => exact absurd rfl (he m)
    | level _ | frame _ => rfl

theorem lastLevel_eq_none {l : List LogEntry} (h : ∀ e ∈ l, ∀ x, e.event ≠ .level x) : lastLevel l = none := by
  induction l with
  | nil => rfl
  | cons e l ih =>
    obtain ⟨he, hl⟩ := List.forall_mem_cons.mp h
    rw [lastLevel_cons, ih hl]
    obtain ⟨n, x⟩ := e
    cases x with
    | level l => exact absurd rfl (he l)
    | mode _ | frame _ => rfl

@[simp] theorem endsInFrame_append_one (l : List LogEntry) (e : LogEntry) :
    endsInFrame (l ++ [e]) = e.event.isFrame := by
  induction l with
  | nil => rfl
  | cons a l ih =>
    cases l with
    | nil => rfl
    | cons b l => exact ih

theorem endsInFrame_eq_true {l : List LogEntry} (h : endsInFrame l = true) :
    ∃ first k b, l = first ++ [⟨k, .frame b⟩] := by
  rcases List.eq_nil_or_concat l with rfl | ⟨first, ⟨k, x⟩, rfl⟩
  · cases h
  · rw [List.concat_eq_append, endsInFrame_append_one] at h
    cases x with
    | frame b => exact ⟨first, k, b, List.concat_eq_append⟩
    | mode _ | level _ => cases h

/-! ### The updates of the log -/

@[simp] theorem lineMode_switchTxPin (s : State) (m : TxPinMode) : lineMode (s.switchTxPin m) = m := by
  simp [lineMode, lastMode, WireEvent.mode?]

@[simp] theorem latchLevel_switchTxPin (s : State) (m : TxPinMode) :
    latchLevel (s.switchTxPin m) = latchLevel s := by
  simp [latchLevel, lastLevel, WireEvent.level?]

@[simp] theorem lineMode_driveTx (s : State) (l : Bool) : lineMode (s.driveTx l) = lineMode s := by
  simp [lineMode, lastMode, WireEvent.mode?]

@[simp] theorem latchLevel_driveTx (s : State) (l : Bool) : latchLevel (s.driveTx l) = l := by
  simp [latchLevel, lastLevel, WireEvent.level?]

@[simp] theorem lineMode_logFrame (s : State) (b : Byte) : lineMode (s.log (.frame b)) = lineMode s := by
  simp [lineMode, lastMode, WireEvent.mode?]

@[simp] theorem latchLevel_logFrame (s : State) (b : Byte) : latchLevel (s.log (.frame b)) = latchLevel s := by
  simp [latchLevel, lastLevel, WireEvent.level?]

/-! ### The level of the line -/

theorem mayCarryFrame_eq_false (he : s.txe = true)
    (hl : ∀ first k b, s.wireLog ≠ first ++ [⟨k, .frame b⟩]) : mayCarryFrame s = false := by
  cases h : endsInFrame s.wireLog with
  | false => simp [mayCarryFrame, he, h]
  | true =>
    obtain ⟨first, k, b, h⟩ := endsInFrame_eq_true h
    exact absurd h (hl first k b)

theorem lineLevel_gpio (h : lineMode s = .gpio) : lineLevel s = latchLevel s := by
  simp only [lineLevel, h]

theorem lineLevel_af (h : lineMode s = .af) (hf : mayCarryFrame s = false) : lineLevel s = true := by
  simp only [lineLevel, h, hf]

/-- Where the log tells the pin, a plain output shows its latch. -/
theorem LogTellsPin.lineLevel_gpio (h : LogTellsPin s) (hm : s.txPinMode = .gpio) :
    lineLevel s = s.txLevel := by
  rw [Machine.lineLevel_gpio (h.1.trans hm), h.2]

/-! ### The frames of a transmission -/

@[simp] theorem framesOf_zero (bytes : Nat → Byte) : framesOf bytes 0 = [] := rfl

theorem framesOf_succ (bytes : Nat → Byte) (n : Nat) :
    framesOf bytes (n + 1) = framesOf bytes n ++ [.frame (bytes n)] := by
  simp [framesOf, List.range_succ]

end Sys2Proof.Machine
end

