-- ==== Sys2Proof/Laws/PerInstr.lean ====
section
/-!
SUPPORT. Statements about every operation as syntax, one lemma per constructor of `Instr`.

Family `OpcodeAgent` (30_encoding.md R94): the agent can be read from the top bits of the opcode of an
operation word; a micro-operation has no word and runs in the foreground context.
-/

namespace Sys2Proof.Laws.OpcodeAgent

/-- The agent a code is a step of: an operation word's is read from its opcode, a phase is the foreground's. -/
def agentOfCode : Code → Option Agent
  | .word w => agentOfOpcode (opcOf w)
  | .phase _ => some .foreground

/-- The agent of an operation is the one its code gives. -/
def Statement (i : Instr) : Prop :=
  i.wellFormed = true → agentOfCode (encode i) = some i.agent

/-- The opcode of a packed word, when the bits below it fit in 24. -/
theorem opcOf_packWord {opc low : Nat} (ho : opc < 256) (hl : low < 2 ^ 24) :
    opcOf (packWord opc low) = opc := by
  simp only [opcOf, slice, packWord, BitVec.toNat_ofNat]
  omega

theorem packEvent_lt (fe rxne : Bool) (data : Byte) : packEvent fe rxne data < 2 ^ 24 := by
  have := data.isLt
  cases fe <;> cases rxne <;> simp [packEvent] <;> omega

theorem init : Statement .init := fun _ => by decide
theorem pktAvail : Statement .pktAvail := fun _ => by decide
theorem getPkt : Statement .getPkt := fun _ => by decide
theorem getRxLen : Statement .getRxLen := fun _ => by decide
theorem freePkt : Statement .freePkt := fun _ => by decide
theorem getTxBuf : Statement .getTxBuf := fun _ => by decide
theorem startTx : Statement .startTx := fun _ => by decide
theorem txStep : Statement .txStep := fun _ => by decide

theorem rxbLd (idx : Nat) : Statement (.rxbLd idx) := fun h => by
  simp only [Instr.wellFormed, decide_eq_true_eq] at h
  simp only [encode, agentOfCode]
  rw [opcOf_packWord (by omega) (by omega)]
  rfl

theorem txbLd (idx : Nat) : Statement (.txbLd idx) := fun h => by
  simp only [Instr.wellFormed, decide_eq_true_eq] at h
  simp only [encode, agentOfCode]
  rw [opcOf_packWord (by omega) (by omega)]
  rfl

theorem txbSt (idx : Nat) (val : Byte) : Statement (.txbSt idx val) := fun h => by
  have := val.isLt
  simp only [Instr.wellFormed, decide_eq_true_eq] at h
  simp only [encode, agentOfCode]
  rw [opcOf_packWord (by omega) (by omega)]
  rfl

theorem rxIrqBreak (rxne : Bool) (data : Byte) : Statement (.rxIrqBreak rxne data) := fun _ => by
  simp only [encode, agentOfCode]
  rw [opcOf_packWord (by omega) (packEvent_lt ..)]
  rfl

theorem rxIrqData (data : Byte) : Statement (.rxIrqData data) := fun _ => by
  simp only [encode, agentOfCode]
  rw [opcOf_packWord (by omega) (packEvent_lt ..)]
  rfl

theorem rxIrqNone (data : Byte) : Statement (.rxIrqNone data) := fun _ => by
  simp only [encode, agentOfCode]
  rw [opcOf_packWord (by omega) (packEvent_lt ..)]
  rfl

theorem envTick (n : Nat) : Statement (.envTick n) := fun h => by
  simp only [Instr.wellFormed, decide_eq_true_eq] at h
  simp only [encode, agentOfCode]
  rw [opcOf_packWord (by omega) (by omega)]
  rfl

theorem envTxDrain : Statement .envTxDrain := fun _ => by decide
theorem envIrqEn : Statement .envIrqEn := fun _ => by decide
theorem txsPinGpio : Statement .txsPinGpio := fun _ => by decide
theorem txsIdleHigh : Statement .txsIdleHigh := fun _ => by decide
theorem txsBreakLow : Statement .txsBreakLow := fun _ => by decide
theorem txsMabHigh : Statement .txsMabHigh := fun _ => by decide
theorem txsPinAf : Statement .txsPinAf := fun _ => by decide
theorem txsSend : Statement .txsSend := fun _ => by decide

end Sys2Proof.Laws.OpcodeAgent
end

