-- ==== Sys2Proof/Laws/Pulses.lean ====
section
/-!
SUPPORT. The small lemmas of the timing invariant of Safety.lean: what a tick, an armed wait and a
finished wait do to it, and when a longer log keeps its pulses.
-/

namespace Sys2Proof.Machine

variable {s : State} {l : Bool} {k : Nat}

theorem noPulse_advance (n : Nat) (h : noPulse s) : noPulse (s.advance n) := by
  unfold noPulse lastEntry at *
  simp only [State.advance_wireLog, State.advance_now]
  cases hl : s.wireLog.getLast? with
  | none => trivial
  | some a =>
    simp only [hl] at h
    exact ⟨h.1, by omega⟩

theorem pulseOver_advance (n : Nat) (h : pulseOver s l k) : pulseOver (s.advance n) l k := by
  unfold pulseOver lastEntry at *
  simp only [State.advance_wireLog, State.advance_now]
  cases hl : s.wireLog.getLast? with
  | none => simp only [hl] at h
  | some a =>
    simp only [hl] at h
    exact ⟨h.1, by omega⟩

theorem pulseRunning_advance (n : Nat) (h : pulseRunning s l) : pulseRunning (s.advance n) l := by
  unfold pulseRunning lastEntry at *
  simp only [State.advance_wireLog, State.advance_now, elapsed_advance, State.advance_params]
  cases hl : s.wireLog.getLast? with
  | none => simp only [hl] at h
  | some a =>
    simp only [hl] at h
    obtain ⟨h1, h2, h3⟩ := h
    refine ⟨h1, by omega, ?_⟩
    rw [h3, Nat.mod_add_mod]
    congr 1
    omega

/-- What the log says in a phase stays true as time passes. -/
theorem phaseOnWire_advance (n : Nat) (h : phaseOnWire s) : phaseOnWire (s.advance n) := by
  unfold phaseOnWire at *
  simp only [State.advance_txPhase, State.advance_waitArmed, State.advance_params]
  split at h <;> first
    | exact noPulse_advance n h
    | exact pulseRunning_advance n h
    | exact pulseOver_advance n h

/-- A wait that has read `k` cycles as elapsed has lasted at least `k` ticks. -/
theorem pulseOver_of_running (h : pulseRunning s l) (hk : k ≤ s.elapsed) : pulseOver s l k := by
  unfold pulseRunning lastEntry at h
  unfold pulseOver lastEntry
  cases hl : s.wireLog.getLast? with
  | none => simp only [hl] at h
  | some a =>
    simp only [hl] at h
    obtain ⟨h1, h2, h3⟩ := h
    have := Nat.mod_le (s.now - a.now) (modulus s.params)
    exact ⟨h1, by omega⟩

/-- The visit that arms a wait begins its pulse. -/
theorem pulseRunning_armed (s : State) (l : Bool) (hc : s.cyc < modulus s.params) :
    pulseRunning (s.armWait.driveTx l) l := by
  have h : (s.armWait.driveTx l).elapsed = 0 := elapsed_armWait s hc
  simp [pulseRunning, lastEntry, h]

/-- After no level any entry may follow. -/
theorem gapOk_of_noPulse (hn : noPulse s) (e : WireEvent) :
    ∀ a, s.wireLog.getLast? = some a → gapOk s.params a ⟨s.now, e⟩ = true := by
  intro a ha
  simp only [noPulse, lastEntry, ha] at hn
  obtain ⟨an, ae⟩ := a
  cases ae <;> simp_all [gapOk, WireEvent.level?]

/-- A log keeps its pulses when the new entry comes long enough after the last one. -/
theorem pulsesOk_append {p : Params} {es : List LogEntry} {e : LogEntry} (h : pulsesOk p es = true)
    (hl : ∀ a, es.getLast? = some a → gapOk p a e = true) : pulsesOk p (es ++ [e]) = true := by
  induction es with
  | nil => rfl
  | cons a es ih =>
    cases es with
    | nil => simp [pulsesOk, hl a rfl]
    | cons b es =>
      simp only [pulsesOk, Bool.and_eq_true] at h
      simp only [List.cons_append, pulsesOk, Bool.and_eq_true]
      exact ⟨h.1, ih h.2 (fun c hc => hl c (by simpa using hc))⟩

end Sys2Proof.Machine
end

