-- ==== Sys2Proof/Tests/Slice0.lean ====
section
/-!
SUPPORT. The model's own tests: the ill-formed terms the check refuses, words written out from the formats
of 30_encoding.md, one-step vectors of 95_test_vectors.md section 2, and for every statement with
hypotheses a witness that meets them. Expected results come from the spec's tables.
-/

namespace Sys2Proof.Tests

open Sys2Proof Sys2Proof.Machine

/-! ### Well-formedness: one ill-formed term for each check -/

theorem test_illFormed_rxbLd : (Instr.rxbLd 1024).wellFormed = false := by decide
theorem test_illFormed_txbLd : (Instr.txbLd 1024).wellFormed = false := by decide
theorem test_illFormed_txbSt : (Instr.txbSt 1024 0).wellFormed = false := by decide
theorem test_illFormed_envTick : (Instr.envTick 16777216).wellFormed = false := by decide

/-! ### Decoding (30_encoding.md R91 to R96; 95_test_vectors.md section 2.1) -/

/-- Format F0: the opcode, then 24 zeros. -/
theorem test_decode_f0 :
    decode (.word 0b00000001_000000000000000000000000) = .ok .init ∧
    decode (.word 0b00000010_000000000000000000000000) = .ok .pktAvail ∧
    decode (.word 0b00000011_000000000000000000000000) = .ok .getPkt ∧
    decode (.word 0b00000100_000000000000000000000000) = .ok .getRxLen ∧
    decode (.word 0b00000101_000000000000000000000000) = .ok .freePkt ∧
    decode (.word 0b00000110_000000000000000000000000) = .ok .getTxBuf ∧
    decode (.word 0b00000111_000000000000000000000000) = .ok .startTx ∧
    decode (.word 0b00001000_000000000000000000000000) = .ok .txStep ∧
    decode (.word 0b11100001_000000000000000000000000) = .ok .envTxDrain ∧
    decode (.word 0b11100010_000000000000000000000000) = .ok .envIrqEn := by decide

/-- Formats FI and FIV: the opcode, six zeros, a 10-bit index, a byte. -/
theorem test_decode_indexed :
    decode (.word 0b00010000_000000_0000000110_00000000) = .ok (.rxbLd 6) ∧
    decode (.word 0b00010000_000000_1000000000_00000000) = .ok (.rxbLd 512) ∧
    decode (.word 0b00010000_000000_1111111111_00000000) = .ok (.rxbLd 1023) ∧
    decode (.word 0b00010001_000000_0000000011_00000000) = .ok (.txbLd 3) ∧
    decode (.word 0b00010010_000000_0000000010_11001000) = .ok (.txbSt 2 200) ∧
    decode (.word 0b00010010_000000_1000000000_11111111) = .ok (.txbSt 512 255) := by decide

/-- Format EV: the opcode, 14 zeros, `fe`, `rxne`, a byte. -/
theorem test_decode_event :
    decode (.word 0b10000000_00000000000000_1_1_00000000) = .ok (.rxIrqBreak true 0) ∧
    decode (.word 0b10000000_00000000000000_1_0_00000000) = .ok (.rxIrqBreak false 0) ∧
    decode (.word 0b10000000_00000000000000_1_1_10100101) = .ok (.rxIrqBreak true 0xA5) ∧
    decode (.word 0b10000000_00000000000000_0_1_01100000) = .ok (.rxIrqData 0x60) ∧
    decode (.word 0b10000000_00000000000000_0_0_01111110) = .ok (.rxIrqNone 0x7E) := by decide

/-- Format EN: the opcode, a 24-bit number. -/
theorem test_decode_tick :
    decode (.word 0b11100000_000000000000000000000000) = .ok (.envTick 0) ∧
    decode (.word 0b11100000_000000000000001111101000) = .ok (.envTick 1000) ∧
    decode (.word 0b11100000_111111111111111111111111) = .ok (.envTick 16777215) := by decide

/-- Format S: the eight values of `tx_phase`. -/
theorem test_decode_phase :
    decode (.phase 0b000) = .error .noMicroOp ∧ decode (.phase 0b001) = .ok .txsPinGpio ∧
    decode (.phase 0b010) = .ok .txsIdleHigh ∧ decode (.phase 0b011) = .ok .txsBreakLow ∧
    decode (.phase 0b100) = .ok .txsMabHigh ∧ decode (.phase 0b101) = .ok .txsPinAf ∧
    decode (.phase 0b110) = .ok .txsSend ∧ decode (.phase 0b111) = .error .reservedPhase := by decide

/-- The invalid words of 95_test_vectors.md section 2.1. -/
theorem test_decode_invalid :
    decode (.word 0x00000000) = .error .unassignedOpcode ∧
    decode (.word 0x09000000) = .error .unassignedOpcode ∧
    decode (.word 0x13000000) = .error .unassignedOpcode ∧
    decode (.word 0x81000000) = .error .unassignedOpcode ∧
    decode (.word 0xE3000000) = .error .unassignedOpcode ∧
    decode (.word 0xFFFFFFFF) = .error .unassignedOpcode ∧
    decode (.word 0x01000001) = .error .reservedBits ∧
    decode (.word 0x10000601) = .error .reservedBits ∧
    decode (.word 0x10040000) = .error .reservedBits ∧
    decode (.word 0x12040000) = .error .reservedBits ∧
    decode (.word 0x80000400) = .error .reservedBits ∧
    decode (.word 0x80010100) = .error .reservedBits ∧
    decode (.word 0xE1000001) = .error .reservedBits := by decide

/-- No word is two rows of the opcode map. -/
theorem test_rows_disjoint :
    opcodeRows.Pairwise (fun a b => a.bits &&& (a.mask &&& b.mask) ≠ b.bits &&& (a.mask &&& b.mask)) := by
  decide

/-- The agent of each row's opcode (30_encoding.md R94). -/
theorem test_agent_ranges :
    agentOfOpcode 0x08 = some .foreground ∧ agentOfOpcode 0x12 = some .foreground ∧
    agentOfOpcode 0x80 = some .interrupt ∧ agentOfOpcode 0xE2 = some .environment ∧
    agentOfOpcode 0x20 = none := by decide

/-- The text syntax (30_encoding.md R97). -/
theorem test_assembler :
    assembleLine "TXB_ST 2, 200   ; ret" = some (.txbSt 2 200) ∧
    assembleLine "RX_IRQ 0, 1, 0x60" = some (.rxIrqData 0x60) ∧
    assembleLine "ENV_TICK 16777216" = none := by decide

/-! ### The host's two readings -/

theorem test_tableWord :
    decodeTableWord 32 0xE00003E8 = some (.envTick 1000) ∧ decodeTableWord 8 3 = some .txsBreakLow ∧
    decodeTableWord 8 7 = none := by decide

/-- The parts of a next state a test looks at. -/
def nextIs (r : Result) (p : State → Bool) : Bool :=
  match r with
  | .next t => p t
  | .fault _ | .refused _ => false

/-- Whether an operation is refused for this reason. -/
def refusedAs (r : Result) (q : Refusal) : Bool :=
  match r with
  | .refused x => decide (x = q)
  | .next _ | .fault _ => false

theorem test_fetch_word :
    nextIs (step (State.reset.withFetchWord 32 0x01000000)) (fun t => t.inited && t.trace.isEmpty) = true := by
  decide

theorem test_fetch_phase :
    nextIs (step (State.reset.withFetchWord 8 0b001)) (fun t => t.txPinMode == .gpio) = true := by decide

/-! ### Small states -/

/-- After `INIT` and `ENV_IRQ_EN`, with the parameters `P7`. -/
def running : State :=
  { State.reset with
    inited := true
    irqEnabled := true
    txe := true
    rxPinMode := .inputPulled
    dirPinMode := .output
    uartCfg := ⟨250000, 8, 2, .none, .none, true⟩ }

/-- A receive state over the buffer `A0` to `A6`. -/
def rx (position : Nat) (ready : Bool) : State :=
  { running with
    rxBuffer := [(0, 0xA0), (1, 0xA1), (2, 0xA2), (3, 0xA3), (4, 0xA4), (5, 0xA5), (6, 0xA6)]
    rxPosition := position
    rxReady := ready }

/-- A phase of the sequencer with no wait armed, at cycle 5000. -/
def tx (phase : TxPhase) : State := { running with txPhase := phase, cyc := 5000 }

/-- A phase of the sequencer with a wait armed at `t0`, polled at `cyc`. -/
def waiting (phase : TxPhase) (t0 cyc : Nat) : State :=
  { running with txPhase := phase, waitArmed := true, waitT0 := t0, cyc := cyc }

/-- The `SEND` phase of scenario S3. -/
def sending (index : Nat) (txe : Bool) : State :=
  { running with
    txPhase := .send
    txIndex := index
    txe := txe
    txBuffer := [(2, 200), (3, 150), (4, 100)] }

/-! ### Foreground operations (95_test_vectors.md section 2.3) -/

/-- V-F1. -/
theorem test_init : nextIs (exec .init State.reset) (fun t =>
    t.inited && t.txe && !t.irqEnabled && t.txPinMode == .af && t.wireLog.isEmpty &&
      t.uartCfg == ⟨250000, 8, 2, .none, .none, true⟩ && t.ret == .handle) = true := by decide
/-- V-F2. -/
theorem test_init_again : refusedAs (exec .init running) .alreadyInitialised = true := by decide
/-- V-F6. -/
theorem test_pktAvail : nextIs (exec .pktAvail (rx 0 true)) (fun t => t.ret == .bool true) = true := by decide
/-- V-F3. -/
theorem test_pktAvail_early : refusedAs (exec .pktAvail State.reset) .notInitialised = true := by decide
/-- V-F7. -/
theorem test_getPkt : nextIs (exec .getPkt (rx 7 true)) (fun t => t.ret == .packet .rxb 7) = true := by decide
/-- V-F8. -/
theorem test_getPkt_none : nextIs (exec .getPkt (rx 3 false)) (fun t => t.ret == .packet .null 0) = true := by
  decide
/-- V-F9. -/
theorem test_getRxLen : nextIs (exec .getRxLen (rx 3 false)) (fun t => t.ret == .length 7) = true := by decide
/-- V-F11: ownership follows the flag, not the counter. -/
theorem test_rxbLd : nextIs (exec (.rxbLd 6) (rx 0 true)) (fun t => t.ret == .byte 0xA6) = true := by decide
/-- V-F13. -/
theorem test_rxbLd_notOwned : refusedAs (exec (.rxbLd 0) (rx 3 false)) .rxBufferNotOwned = true := by decide
/-- V-F14. -/
theorem test_freePkt : nextIs (exec .freePkt (rx 7 true)) (fun t => !t.rxReady && t.rxPosition == 7) = true := by
  decide
/-- V-F23. -/
theorem test_freePkt_busy : refusedAs (exec .freePkt (tx .breakLow)) .foregroundBusy = true := by decide
/-- V-F17. -/
theorem test_getTxBuf : nextIs (exec .getTxBuf running) (fun t => t.ret == .view .txb) = true := by decide
/-- V-F18. -/
theorem test_txbSt : nextIs (exec (.txbSt 2 200) running) (fun t => t.txBuffer == [(2, 200)]) = true := by decide
/-- V-F20. -/
theorem test_txbSt_outside : refusedAs (exec (.txbSt 7 1) running) .indexOutOfRange = true := by decide
/-- V-F19. -/
theorem test_txbLd :
    nextIs (exec (.txbLd 2) { sending 0 true with txPhase := .idle }) (fun t => t.ret == .byte 200) = true := by
  decide
/-- V-F21. -/
theorem test_startTx : nextIs (exec .startTx running) (fun t => t.txPhase == .pinGpio) = true := by decide
/-- V-F22. -/
theorem test_startTx_notDrained :
    refusedAs (exec .startTx { running with txe := false }) .transmitterNotDrained = true := by decide
/-- V-F24. -/
theorem test_txStep_idle : refusedAs (exec .txStep running) .noTransmission = true := by decide

/-! ### The receive handler (95_test_vectors.md section 2.2) -/

/-- V-R6. -/
theorem test_break_unconsumed :
    nextIs (exec (.rxIrqBreak true 0) (rx 7 true)) (fun t => t == { rx 7 true with rxPosition := 0 }) = true := by
  decide
/-- V-R11: the byte read with a break is not stored. -/
theorem test_break_first :
    nextIs (exec (.rxIrqBreak true 0x5A) (rx 3 false)) (fun t => t == rx 0 false) = true := by decide
/-- V-R4: the last byte sets `rx_ready`. -/
theorem test_data_last :
    nextIs (exec (.rxIrqData 0x5A) (rx 6 false))
      (fun t => t.rxReady && t.rxPosition == 7 && t.memRead .rxb 6 == 0x5A && t.memRead .rxb 5 == 0xA5) = true := by
  decide
/-- V-R7: dropped while unconsumed, although there is room. -/
theorem test_data_blocked :
    nextIs (exec (.rxIrqData 0x5A) (rx 0 true)) (fun t => t == rx 0 true) = true := by decide
/-- V-R13. -/
theorem test_none : nextIs (exec (.rxIrqNone 0x5A) (rx 3 false)) (fun t => t == rx 3 false) = true := by decide
/-- V-R16. -/
theorem test_event_early :
    refusedAs (exec (.rxIrqNone 0) { State.reset with irqEnabled := true }) .notInitialised = true := by decide

/-! ### The sequencer (95_test_vectors.md section 2.4) -/

/-- V-T1. -/
theorem test_pinGpio :
    nextIs (exec .txStep (tx .pinGpio)) (fun t =>
      t.txPhase == .idleHigh && t.txPinMode == .gpio && t.wireLog == [⟨0, .mode .gpio⟩]) = true := by decide
/-- V-T2. -/
theorem test_idleHigh_arms :
    nextIs (exec .txStep (tx .idleHigh)) (fun t =>
      t.waitArmed && t.waitT0 == 5000 && t.txLevel && t.txPhase == .idleHigh) = true := by decide
/-- V-T4. -/
theorem test_idleHigh_done :
    nextIs (exec .txsIdleHigh (waiting .idleHigh 5000 5100)) (fun t =>
      !t.waitArmed && t.txPhase == .breakLow) = true := by decide
/-- V-T14: still waiting across the wrap, at 999 of 1000 cycles. -/
theorem test_breakLow_wrap :
    nextIs (exec .txStep (waiting .breakLow 0xFFFFFE64 0x24B))
      (fun t => t == waiting .breakLow 0xFFFFFE64 0x24B) = true := by decide
/-- V-T15: done at 1000 cycles. -/
theorem test_breakLow_done :
    nextIs (exec .txStep (waiting .breakLow 0xFFFFFE64 0x24C)) (fun t => t.txPhase == .mabHigh) = true := by decide
/-- V-T8. -/
theorem test_mabHigh_arms :
    nextIs (exec .txsMabHigh (tx .mabHigh)) (fun t => t.wireLog == [⟨0, .level true⟩]) = true := by decide
/-- V-T9. -/
theorem test_mabHigh_done :
    nextIs (exec .txStep (waiting .mabHigh 6100 6220)) (fun t => t.txPhase == .pinAf) = true := by decide
/-- V-T10. -/
theorem test_pinAf :
    nextIs (exec .txStep (tx .pinAf)) (fun t =>
      t.txPhase == .send && t.txIndex == 0 && t.txPinMode == .af && t.wireLog == [⟨0, .mode .af⟩]) = true := by
  decide
/-- V-T11. -/
theorem test_send :
    nextIs (exec .txStep (sending 2 true)) (fun t =>
      t.tdr == 200 && !t.txe && t.txIndex == 3 && t.txPhase == .send) = true := by decide
/-- V-T13. -/
theorem test_send_last :
    nextIs (exec .txsSend (sending 6 true)) (fun t => !t.txe && t.txIndex == 7 && t.txPhase == .idle) = true := by
  decide

/-! ### The environment (95_test_vectors.md section 2.5) -/

/-- V-E1. -/
theorem test_tick_wrap :
    nextIs (exec (.envTick 32) { State.reset with cyc := 0xFFFFFFF0, now := 7 })
      (fun t => t.cyc == 0x10 && t.now == 39) = true := by decide
/-- V-E3. -/
theorem test_drain :
    nextIs (exec .envTxDrain { running with txe := false, tdr := 200, now := 2540 })
      (fun t => t.txe && t.wireLog == [⟨2540, .frame 200⟩]) = true := by decide
/-- V-E4. -/
theorem test_drain_nothing : nextIs (exec .envTxDrain running) (fun t => t == running) = true := by decide
/-- V-E5. -/
theorem test_irqEn : nextIs (exec .envIrqEn State.reset) (fun t => t.irqEnabled) = true := by decide

/-! ### The level of the line (10_state.md R34) -/

/-- R34, R174: low in the break, high from the mark on, with the pin given back too. -/
theorem test_lineLevel :
    lineLevel { running with wireLog := [⟨0, .mode .gpio⟩, ⟨0, .level true⟩, ⟨100, .level false⟩] } = false ∧
    lineLevel { running with
      wireLog := [⟨0, .mode .gpio⟩, ⟨100, .level false⟩, ⟨1100, .level true⟩, ⟨1220, .mode .af⟩] } = true := by
  decide

/-! ### Witnesses: each statement's hypotheses are met, each clause at a boundary of its range -/

/-- The wire is low, 999 of the 1000 cycles of the break have passed across the counter's wrap, and the
next step is `TX_STEP`. -/
def onAir : State :=
  { running with
    txPhase := .breakLow
    txPinMode := .gpio
    waitArmed := true
    waitT0 := 0xFFFFFE64
    cyc := 0x24B
    now := 1099
    wireLog := [⟨0, .mode .gpio⟩, ⟨0, .level true⟩, ⟨100, .level false⟩]
    trace := [0x08000000] }

/-- The last byte of a transmission of zeros is in the UART and `start_tx` has returned. -/
def returned : State :=
  { running with
    txIndex := 7
    txe := false
    wireLog := (preamble ++ List.replicate 6 (WireEvent.frame 0)).map (fun e => ⟨0, e⟩) }

/-- The foreground's next step is `TXB_ST 2, 200`. -/
def storing : State := { returned with trace := [0x120002C8] }

/-- The idle interval has not begun: the latch still holds the 0 of power-on. -/
def taken : State :=
  { running with txPhase := .idleHigh, txPinMode := .gpio, wireLog := [⟨0, .mode .gpio⟩] }

/-- The pin has been given back and no byte is loaded. -/
def markGoesOn : State :=
  { running with
    txPhase := .send
    txLevel := true
    now := 1220
    wireLog := [⟨0, .mode .gpio⟩, ⟨0, .level true⟩, ⟨100, .level false⟩, ⟨1100, .level true⟩, ⟨1220, .mode .af⟩] }

theorem witness_DecodeInvertsEncode :
    (Instr.rxbLd 1023).wellFormed = true ∧ (Instr.txbLd 0).wellFormed = true ∧
    (Instr.txbSt 1023 255).wellFormed = true ∧ (Instr.envTick 16777215).wellFormed = true ∧
    (Instr.rxIrqBreak false 255).wellFormed = true ∧ Instr.txsSend.wellFormed = true := by decide

theorem witness_EncodeInvertsDecode :
    decode (.word 0x1203FFFF) = .ok (.txbSt 1023 255) ∧ decode (.word 0xE0FFFFFF) = .ok (.envTick 16777215) ∧
    decode (.phase 1) = .ok .txsPinGpio ∧ decode (.phase 6) = .ok .txsSend := by decide

theorem witness_DecoderAgreesWithOpcodeMap :
    (∃ r ∈ opcodeRows, r.matchesWord 0x800001FF = true) ∧
    ∀ r ∈ opcodeRows, r.matchesWord 0x80000400 = false := by decide

theorem witness_StepRunsDecodedInstruction :
    onAir.trace = [0x08000000] ∧ decode (.word 0x08000000) = .ok .txStep ∧ State.reset.trace = [] := by decide

theorem witness_InvalidWordIsRefused :
    (∀ r ∈ opcodeRows, r.matchesWord 0x09000000 = false) ∧
    ({ running with trace := [0x09000000] } : State).trace = [0x09000000] ∧
    (∃ r ∈ opcodeRows, r.matchesWord 0x08000000 = true) ∧ onAir.trace = [0x08000000] := by decide

theorem witness_InitConstructsDriver : State.reset.inited = false ∧ running.inited = true := by decide

/-- The three states an admission check tells apart. -/
abbrev EarlyBusyAdmitted (s : State) : Prop :=
  State.reset.inited = false ∧ (onAir.inited = true ∧ onAir.txPhase ≠ .idle) ∧
  s.inited = true ∧ s.txPhase = .idle

theorem witness_PktAvailReturnsRxReady : EarlyBusyAdmitted (rx 7 true) := by decide

theorem witness_GetPktReturnsViewOrNull :
    EarlyBusyAdmitted (rx 7 true) ∧ (rx 7 true).rxReady = true ∧
    EarlyBusyAdmitted (rx 3 false) ∧ (rx 3 false).rxReady = false := by decide

theorem witness_GetRxLenReturnsCapacity : EarlyBusyAdmitted (rx 3 false) := by decide

theorem witness_RxbLdReadsOwnedBuffer :
    EarlyBusyAdmitted (rx 3 false) ∧ (rx 3 false).rxReady = false ∧
    EarlyBusyAdmitted (rx 7 true) ∧ (rx 7 true).rxReady = true ∧
    (rx 7 true).params.rxCapacity ≤ 7 ∧ 6 < (rx 7 true).params.rxCapacity := by decide

theorem witness_FreePktClearsRxReady : EarlyBusyAdmitted (rx 7 true) := by decide

theorem witness_GetTxBufReturnsView : EarlyBusyAdmitted running := by decide

theorem witness_TxbLdReadsBuffer :
    EarlyBusyAdmitted running ∧ running.params.txCapacity ≤ 7 ∧ 6 < running.params.txCapacity := by decide

theorem witness_TxbStWritesOneByte :
    EarlyBusyAdmitted running ∧ running.params.txCapacity ≤ 7 ∧ 6 < running.params.txCapacity ∧
    running.txBuffer.wf = true := by decide

theorem witness_StartTxEntersSequence :
    EarlyBusyAdmitted returned ∧ returned.txe = false ∧ EarlyBusyAdmitted running ∧ running.txe = true := by
  decide

theorem witness_FreeThenAvailableIsFalse :
    (rx 7 true).inited = true ∧ (rx 7 true).txPhase = .idle := by decide

theorem witness_TxStepRunsSelectedMicroOp :
    decode (.word 0x08000000) = .ok .txStep ∧
    (onAir.inited = true ∧ decode (.phase onAir.txPhase.bits) = .ok .txsBreakLow) ∧
    (running.inited = true ∧ running.txPhase = .idle) ∧ State.reset.inited = false := by decide

theorem witness_IrqEnableSetsTheLine : State.reset.inited = false := by decide

theorem witness_PinGpioTakesThePin :
    (tx .pinGpio).inited = true ∧ (tx .pinGpio).txPhase = .pinGpio := by decide

/-- Each pulse with no wait armed. -/
theorem witness_PulsesDriveAndWait_arming :
    ∀ r ∈ pulseRows Config.p7, r ∈ pulseRows (tx r.phase).params ∧ (tx r.phase).inited = true ∧
      (tx r.phase).txPhase = r.phase ∧ (tx r.phase).waitArmed = false := by decide

/-- Each pulse polled one cycle before its length and at its length, across the counter's wrap. -/
theorem witness_PulsesDriveAndWait :
    ∀ r ∈ pulseRows Config.p7, ∀ k ∈ [r.length - 1, r.length],
      let s := waiting r.phase 0xFFFFFFFF (k - 1)
      r ∈ pulseRows s.params ∧ s.inited = true ∧ s.txPhase = r.phase ∧ s.waitArmed = true ∧
        k < 2 ^ s.params.cycWidth ∧ s.cyc = (s.waitT0 + k) % 2 ^ s.params.cycWidth ∧
        (k < r.length ∨ r.length ≤ k) := by decide

theorem witness_PinAfGivesThePinBack : (tx .pinAf).inited = true ∧ (tx .pinAf).txPhase = .pinAf := by decide

theorem witness_SendLoadsOneByte :
    ((sending 6 false).inited = true ∧ (sending 6 false).txPhase = .send ∧ (sending 6 false).txe = false) ∧
    ((sending 6 true).inited = true ∧ (sending 6 true).txPhase = .send ∧ (sending 6 true).txe = true ∧
      (sending 6 true).txIndex < (sending 6 true).params.txCapacity) ∧
    ((sending 7 true).inited = true ∧ (sending 7 true).txPhase = .send ∧ (sending 7 true).txe = true ∧
      (sending 7 true).params.txCapacity ≤ (sending 7 true).txIndex) := by decide

theorem witness_DrainSendsTheFrame :
    State.reset.inited = false ∧ (running.inited = true ∧ running.txe = true) ∧
    (returned.inited = true ∧ returned.txe = false) := by decide

theorem witness_HandlerAdmission :
    State.reset.irqEnabled = false ∧
    ({ State.reset with irqEnabled := true } : State).irqEnabled = true ∧
    ({ State.reset with irqEnabled := true } : State).inited = false := by decide

theorem witness_BreakResetsPosition : (rx 7 true).irqEnabled = true ∧ (rx 7 true).inited = true := by decide

/-- The last slot, a full buffer, and room while the packet is unconsumed. -/
theorem witness_DataByteStoredOrDropped :
    ((rx 6 false).irqEnabled = true ∧ (rx 6 false).inited = true ∧
      (rx 6 false).rxPosition < (rx 6 false).params.rxCapacity ∧ (rx 6 false).rxReady = false ∧
      (rx 6 false).rxBuffer.wf = true) ∧
    ((rx 7 false).irqEnabled = true ∧ (rx 7 false).inited = true ∧
      (rx 7 false).params.rxCapacity ≤ (rx 7 false).rxPosition) ∧
    ((rx 0 true).irqEnabled = true ∧ (rx 0 true).inited = true ∧ (rx 0 true).rxReady = true) := by decide

theorem witness_NoFlagsChangesNothing : (rx 3 false).irqEnabled = true ∧ (rx 3 false).inited = true := by decide

theorem witness_HandlerIsOneFunction : (rx 6 false).irqEnabled = true ∧ (rx 6 false).inited = true := by decide

/-- A running block at rest meets the invariant. -/
theorem running_blockInv : BlockInv running :=
  ⟨by decide, by decide, by decide, by decide, fun _ => ⟨by decide, by decide, by decide⟩⟩

/-- So does each receive class. -/
theorem rx_blockInv :
    BlockInv (rx 0 false) ∧ BlockInv (rx 6 false) ∧ BlockInv (rx 7 true) ∧ BlockInv (rx 7 false) ∧
    BlockInv (rx 0 true) :=
  ⟨⟨by decide, by decide, by decide, by decide, fun _ => ⟨by decide, by decide, by decide⟩⟩,
   ⟨by decide, by decide, by decide, by decide, fun _ => ⟨by decide, by decide, by decide⟩⟩,
   ⟨by decide, by decide, by decide, by decide, fun _ => ⟨by decide, by decide, by decide⟩⟩,
   ⟨by decide, by decide, by decide, by decide, fun _ => ⟨by decide, by decide, by decide⟩⟩,
   ⟨by decide, by decide, by decide, by decide, fun _ => ⟨by decide, by decide, by decide⟩⟩⟩

/-- The block in the middle of a break meets the invariant. -/
theorem onAir_blockInv : BlockInv onAir :=
  ⟨by decide, by decide, by decide, by decide, fun _ => ⟨by decide, by decide, by decide⟩⟩

/-- `TX_STEP` in the middle of a break is a step to a next state. -/
theorem onAir_steps : step onAir = .next { onAir with trace := [] } := by rfl

theorem witness_ReceiveTransitionTable :
    (BlockInv (rx 6 false) ∧ (rx 6 false).inited = true ∧ (rx 6 false).irqEnabled = true) ∧
    (rx 6 false).txPhase = .idle ∧
    [rxClass (rx 0 false), rxClass (rx 6 false), rxClass (rx 7 true), rxClass (rx 7 false),
      rxClass (rx 0 true)] =
      [some .idle, some .filling, some .fullUnconsumed, some .fullConsumed, some .resyncBlocked] :=
  ⟨⟨rx_blockInv.2.1, by decide, by decide⟩, by decide, by decide⟩

/-- Each condition is raised by some event; a data byte can raise two. -/
theorem witness_ErrorConditionsAreNextStates :
    (rx 7 true).irqEnabled = true ∧ (rx 7 true).inited = true ∧
    conditions (Snapshot.sample true true 0) (rx 7 true) = [.framingBreak] ∧
    conditions (Snapshot.sample false true 0x5A) (rx 7 true) = [.busy, .overrun] ∧
    conditions (Snapshot.sample false true 0x5A) (rx 0 true) = [.busy] ∧
    conditions (Snapshot.sample false true 0x5A) (rx 7 false) = [.overrun] := by decide

theorem witness_BufferOwnership :
    (nextIs (exec (.rxIrqData 0x5A) (rx 6 false)) (fun t => t.rxReady) = true ∧
      (rx 6 false).inited = true ∧ (rx 6 false).rxReady = false) ∧
    (nextIs (exec .freePkt (rx 7 true)) (fun t => !t.rxReady) = true ∧
      (rx 7 true).inited = true ∧ (rx 7 true).rxReady = true) := by decide

theorem witness_UnconsumedPacketIsStable :
    (rx 7 true).irqEnabled = true ∧ (rx 7 true).inited = true ∧ (rx 7 true).rxReady = true := by decide

theorem witness_CapacityBytesCompletePacket :
    BlockInv (rx 6 false) ∧ (rx 6 false).irqEnabled = true ∧ (rx 6 false).inited = true ∧
    (rx 6 false).rxReady = false ∧
    ([1, 2, 3, 4, 5, 6, 7] : List Byte).length = (rx 6 false).params.rxCapacity ∧
    6 < (rx 6 false).params.rxCapacity :=
  ⟨rx_blockInv.2.1, by decide⟩

theorem witness_InterruptContextFrame :
    (Instr.rxIrqData 0x5A).agent = .interrupt ∧ (rx 7 true).rxReady = true ∧
    nextIs (exec (.rxIrqData 0x5A) (rx 7 true)) (fun t => t.rxReady) = true := by decide

theorem witness_ForegroundFrame :
    Instr.txsPinAf.agent = .foreground ∧ (tx .pinAf).inited = true ∧
    nextIs (exec .txsPinAf (tx .pinAf)) (fun t => t.txPhase == .send) = true ∧
    Instr.pktAvail.agent = .foreground ∧ (rx 7 true).inited = true ∧
    nextIs (exec .pktAvail (rx 7 true)) (fun t => t.rxReady) = true := by decide

theorem witness_EnvironmentFrame :
    Instr.envTxDrain.agent = .environment ∧ nextIs (exec .envTxDrain returned) (fun t => t.txe) = true := by
  decide

/-- Each piece of state is written by some operation. -/
theorem witness_OnlyTheseOperationsWrite :
    nextIs (exec .init State.reset) (fun t => t.inited && t.dirPinMode == .output) = true ∧
    nextIs (exec (.rxIrqData 1) (rx 6 false)) (fun t => t.rxPosition == 7 && t.rxReady) = true ∧
    nextIs (exec (.txbSt 0 1) running) (fun t => t.txBuffer == [(0, 1)]) = true ∧
    nextIs (exec .txStep (tx .idleHigh)) (fun t => t.waitArmed && t.txLevel) = true ∧
    nextIs (exec .txStep (sending 6 true)) (fun t => t.txIndex == 7 && !t.txe && t.txPhase == .idle) = true ∧
    nextIs (exec .txStep (sending 2 true)) (fun t => t.tdr == 200) = true ∧
    nextIs (exec .txsPinGpio (tx .pinGpio)) (fun t => t.txPinMode == .gpio) = true ∧
    nextIs (exec (.envTick 1) running) (fun t => t.cyc == 1 && t.now == 1) = true ∧
    nextIs (exec .envIrqEn State.reset) (fun t => t.irqEnabled) = true := by decide

theorem witness_SetupIsForever :
    running.inited = true ∧ running.irqEnabled = true ∧
    nextIs (exec .startTx running) (fun t => t.inited && t.irqEnabled) = true := by decide

theorem witness_NotInitialisedIsRefused :
    State.reset.inited = false ∧
    (Instr.txStep.isMicroOp = false ∧ Instr.txStep ≠ .init ∧ Instr.txStep.agent = .foreground) ∧
    Instr.envTxDrain.isMicroOp = false ∧ Instr.envTxDrain ≠ .init := by decide

theorem witness_BusyForegroundRunsOnlyTxStep :
    onAir.inited = true ∧ onAir.txPhase ≠ .idle ∧ BlockInv onAir ∧
    (Instr.freePkt.agent = .foreground ∧ Instr.freePkt.isMicroOp = false ∧ Instr.freePkt ≠ .txStep ∧
      Instr.freePkt ≠ .init) :=
  ⟨by decide, by decide, onAir_blockInv, by decide⟩

theorem witness_StepKeepsInv : BlockInv onAir ∧ step onAir = .next { onAir with trace := [] } :=
  ⟨onAir_blockInv, onAir_steps⟩

theorem witness_StepNeverFaults :
    BlockInv onAir ∧ onAir.trace = [0x08000000] ∧ decode (.word 0x08000000) = .ok .txStep :=
  ⟨onAir_blockInv, by decide⟩

/-- Its log agrees with its phase. -/
theorem onAir_pulseInv : PulseInv onAir := ⟨by decide, fun _ => ⟨rfl, by decide, by decide⟩⟩

theorem witness_StepKeepsPulseTiming :
    BlockInv onAir ∧ PulseInv onAir ∧ step onAir = .next { onAir with trace := [] } :=
  ⟨onAir_blockInv, onAir_pulseInv, onAir_steps⟩

theorem witness_StepKeepsLogTellsPin :
    BlockInv onAir ∧ LogTellsPin onAir ∧ step onAir = .next { onAir with trace := [] } :=
  ⟨onAir_blockInv, by decide, onAir_steps⟩

theorem witness_CounterFollowsNow : step onAir = .next { onAir with trace := [] } := onAir_steps

theorem witness_WaitMeasuresTicks :
    (waiting .breakLow 0xFFFFFFFF 0xFFFFFFFF).cyc < 2 ^ (waiting .breakLow 0xFFFFFFFF 0xFFFFFFFF).params.cycWidth ∧
    (waiting .breakLow 0xFFFFFFFF 0xFFFFFFFF).waitT0 = (waiting .breakLow 0xFFFFFFFF 0xFFFFFFFF).cyc := by decide

/-- 999 cycles have passed and one more ends the break. -/
theorem witness_WaitEndsOnceElapsed :
    ∀ r, r = PulseRow.mk .txsBreakLow .breakLow 1000 false .mabHigh →
      r ∈ pulseRows onAir.params ∧ onAir.inited = true ∧ onAir.txPhase = r.phase ∧ onAir.waitArmed = true ∧
      onAir.cyc = (onAir.waitT0 + 999) % 2 ^ onAir.params.cycWidth ∧ r.length ≤ 999 + 1 ∧
      999 + 1 < 2 ^ onAir.params.cycWidth := by
  rintro r rfl
  decide

/-- Bytes all 0. -/
def zeros : Nat → Byte := fun _ => 0

/-- In the middle of the break, and after the return with the last byte in the UART and a store to
`tx_buffer` next. -/
theorem witness_TransmissionWireResult :
    nextIs (exec .startTx running) (fun t => t.txPhase == .pinGpio) = true ∧
    (BlockInv onAir ∧ onAir.inited = true ∧ onAir.txPhase ≠ .idle ∧ Transmitting [] zeros onAir ∧
      step onAir = .next { onAir with trace := [] }) ∧
    (BlockInv storing ∧ storing.inited = true ∧ storing.txPhase = .idle ∧ Transmitting [] zeros storing ∧
      decode (.word 0x120002C8) ≠ .ok .startTx ∧
      step storing = .next { returned with txBuffer := [(2, 200)] }) ∧
    (returned.inited = true ∧ returned.txPhase = .idle ∧ Transmitting [] zeros returned) :=
  ⟨by decide, ⟨onAir_blockInv, by decide, by decide, by decide, onAir_steps⟩,
   ⟨⟨by decide, by decide, by decide, by decide, fun _ => ⟨by decide, by decide, by decide⟩⟩,
    by decide, by decide, by decide, by decide, rfl⟩, by decide⟩

theorem witness_RunTxWireLog :
    BlockInv running ∧ running.inited = true ∧ running.txPhase = .idle ∧ running.txe = true :=
  ⟨running_blockInv, by decide⟩

theorem witness_FillThenTransmitRoundTrip :
    BlockInv running ∧ running.inited = true ∧ running.txPhase = .idle ∧ running.txe = true ∧
    ([0, 0, 200, 150, 100, 0, 0] : List Byte).length = running.params.txCapacity :=
  ⟨running_blockInv, by decide⟩

/-- Low in the break; high with the pin given back. -/
theorem witness_LineLevelFollowsLog :
    (onAir.wireLog = [] ++ ⟨0, .mode .gpio⟩ :: [⟨0, .level true⟩, ⟨100, .level false⟩] ∧
      (∀ e ∈ [LogEntry.mk 0 (.level true), ⟨100, .level false⟩], ∀ k, e.event ≠ .mode k) ∧
      onAir.wireLog = [⟨0, .mode .gpio⟩, ⟨0, .level true⟩] ++ ⟨100, .level false⟩ :: []) ∧
    (markGoesOn.wireLog = markGoesOn.wireLog.take 4 ++ ⟨1220, .mode .af⟩ :: [] ∧ markGoesOn.txe = true ∧
      ∀ first k b, markGoesOn.wireLog ≠ first ++ [⟨k, .frame b⟩]) :=
  ⟨⟨by decide, by simp, by decide⟩, by decide, by decide, fun first k b h => by
    have := congrArg List.getLast? h
    simp [markGoesOn] at this⟩

/-- A GPIO phase whose last entry was logged at 0; an armed wait began there. -/
def onLine (phase : TxPhase) (armed level : Bool) (now : Nat) : State :=
  { running with
    txPhase := phase
    txPinMode := .gpio
    waitArmed := armed
    txLevel := level
    cyc := now
    now := now
    wireLog := [⟨0, .mode .gpio⟩, ⟨0, .level level⟩] }

/-- Each phase, with and without a wait where the clause tells them apart. -/
theorem witness_LineLevelInEachPhase :
    (BlockInv taken ∧ LogTellsPin taken ∧ PulseInv taken) ∧
    (∀ s ∈ [onLine .idleHigh true true 99, onLine .breakLow false true 100, onLine .breakLow true false 999,
        onLine .mabHigh false false 1000, onLine .mabHigh true true 119, onLine .pinAf false true 120],
      BlockInv s ∧ LogTellsPin s ∧ PulseInv s ∧ s.inited = true) ∧
    (BlockInv markGoesOn ∧ LogTellsPin markGoesOn ∧ PulseInv markGoesOn ∧ markGoesOn.txPhase = .send ∧
      markGoesOn.txe = true) := by
  refine ⟨⟨?_, by decide, by decide, fun _ => ⟨by decide, by decide⟩⟩, ?_,
    ⟨?_, by decide, ⟨by decide, fun _ => ⟨by decide, by decide⟩⟩, by decide⟩⟩
  · exact ⟨by decide, by decide, by decide, by decide, fun _ => ⟨by decide, by decide, by decide⟩⟩
  · simp only [List.forall_mem_cons]
    refine ⟨?_, ?_, ?_, ?_, ?_, ?_, fun _ h => by cases h⟩ <;>
      exact ⟨⟨by decide, by decide, by decide, by decide, fun _ => ⟨by decide, by decide, by decide⟩⟩,
        by decide, ⟨by decide, fun _ => by simp [phaseOnWire, pulseRunning, pulseOver, lastEntry, onLine]; decide⟩, by decide⟩
  · exact ⟨by decide, by decide, by decide, by decide, fun _ => ⟨by decide, by decide, by decide⟩⟩

end Sys2Proof.Tests
end

section
/-!
PROOF. The statements about the state: the invariant of the block, who writes what, the log and the line.
-/

namespace Sys2Proof.Machine

variable {i m : Instr} {p : TxPhase} {s t : State}

/-! ### The operations a step can run -/

theorem isMicroOp_rxIrq (fe rxne : Bool) (data : Byte) : (Instr.rxIrq fe rxne data).isMicroOp = false := by
  cases fe <;> cases rxne <;> rfl

theorem isMicroOp_of_operationOf {w : OpWord} (h : operationOf w = some i) : i.isMicroOp = false := by
  unfold operationOf at h
  split at h <;> cases h
  case h_12 => exact isMicroOp_rxIrq ..
  all_goals rfl

/-- The micro-operations are "not issued by words" (30_encoding.md R96). -/
theorem isMicroOp_of_decode_word {w : OpWord} (h : decode (.word w) = .ok i) : i.isMicroOp = false := by
  change decodeWord w = .ok i at h
  unfold decodeWord at h
  split at h
  · split at h <;> cases h
    exact isMicroOp_of_operationOf ‹_›
  · cases h

/-- What is no micro-operation runs one only as `TX_STEP`, in its phase. -/
theorem Runs.admitted (h : Runs i m p s) (hi : i.isMicroOp = false) (hm : m.isMicroOp = true) :
    s.inited = true ∧ s.txPhase = p := by
  rcases h with rfl | ⟨-, h⟩
  · rw [hi] at hm; cases hm
  · exact h

/-! ### The invariant of the block -/

/-- What the invariant asks of an initialised block. -/
theorem BlockInv.parts (h : BlockInv s) (hi : s.inited = true) :
    s.params.Legal ∧ s.cyc < modulus s.params ∧ BufferInv s ∧ RxInv s ∧ TxInv s ∧ SetupInv s := by
  obtain ⟨hl, hc, hb, -, h⟩ := h
  exact ⟨hl, hc, hb, h hi⟩

theorem blockInv_of_parts (hi : s.inited = true) (hl : s.params.Legal) (hc : s.cyc < modulus s.params)
    (hb : BufferInv s) (hr : RxInv s) (ht : TxInv s) (hu : SetupInv s) : BlockInv s :=
  ⟨hl, hc, hb, by simp [hi], fun _ => ⟨hr, ht, hu⟩⟩

theorem blockInv_construct (h : BlockInv s) : BlockInv s.construct := by
  obtain ⟨hl, hc, -⟩ := h
  have ht : TxInv s.construct := ⟨Nat.zero_le _, nofun, Nat.mod_lt _ (modulus_pos _), nofun,
    by simp [State.construct, isGpioPhase], nofun⟩
  exact blockInv_of_parts rfl hl hc ⟨rfl, rfl, rfl, rfl⟩ ⟨Nat.zero_le _, nofun⟩ ht ⟨rfl, rfl, rfl, rfl⟩

theorem blockInv_advance (n : Nat) (h : BlockInv s) : BlockInv (s.advance n) := by
  obtain ⟨hl, -, h⟩ := h
  exact ⟨hl, Nat.mod_lt _ (modulus_pos _), h⟩

/-- Storing a byte inside `tx_buffer`. -/
theorem blockInv_setTxBuffer_write {idx : Nat} (val : Byte) (hx : idx < s.params.txCapacity) (h : BlockInv s) :
    BlockInv (s.setTxBuffer (s.txBuffer.write idx val)) := by
  obtain ⟨hl, hc, ⟨hrw, hrn, htw, htn⟩, h⟩ := h
  exact ⟨hl, hc, ⟨hrw, hrn, Memory.wf_write _ _ htw, Memory.within_write _ htn hx⟩, h⟩

/-! What changes one part of an initialised block keeps the invariant when it keeps that part's. -/

theorem rxInv_setRxReady_false (h : RxInv s) : RxInv (s.setRxReady false) :=
  ⟨h.1, nofun⟩

theorem rxInv_setRxPosition_zero : RxInv (s.setRxPosition 0) :=
  ⟨Nat.zero_le _, fun _ => .inl rfl⟩

/-- A data byte keeps the range of the position, and completes the packet only at the capacity. -/
theorem rxInv_storeSlot (data : Byte) (h : RxInv s) : RxInv (storeSlot data s) := by
  rcases storeSlot_cases data s with ⟨hp, hr, e⟩ | ⟨hp, hr, e⟩ | ⟨-, e⟩ <;> rw [e]
  · exact ⟨by simpa using hp.le, by simp [hr]⟩
  · exact ⟨by simpa using hp.le, by simp [hp]⟩
  · exact h

/-- A data byte is written inside the buffer or not at all. -/
theorem bufferInv_storeSlot (data : Byte) (h : BufferInv s) : BufferInv (storeSlot data s) := by
  obtain ⟨hrw, hrn, htx⟩ := h
  have hwf := Memory.wf_write s.rxPosition data hrw
  have hin : s.rxPosition < s.params.rxCapacity → (s.rxBuffer.write s.rxPosition data).within _ = true :=
    Memory.within_write data hrn
  rcases storeSlot_cases data s with ⟨hp, -, e⟩ | ⟨hp, -, e⟩ | ⟨-, e⟩ <;> rw [e]
  · exact ⟨hwf, hin (by omega), htx⟩
  · exact ⟨hwf, hin (by omega), htx⟩
  · exact ⟨hrw, hrn, htx⟩

theorem blockInv_storeSlot (data : Byte) (hi : s.inited = true) (h : BlockInv s) :
    BlockInv (storeSlot data s) := by
  obtain ⟨hl, hc, hb, hr, ht, hu⟩ := h.parts hi
  have hb' := bufferInv_storeSlot data hb
  have hr' := rxInv_storeSlot data hr
  rw [storeSlot_frame] at hb' hr' ⊢
  exact blockInv_of_parts hi hl hc hb' hr' ht hu

theorem txInv_started (hp : s.txPhase = .idle) (he : s.txe = true) (h : TxInv s) :
    TxInv (s.setTxPhase .pinGpio) := by
  obtain ⟨hx, -, h0, ha, hm, -⟩ := h
  exact ⟨hx, nofun, h0, by simpa [hp, isPulsePhase] using ha, by simpa [hp, isGpioPhase] using hm, by simp [he]⟩

theorem txInv_pinTaken (hp : s.txPhase = .pinGpio) (h : TxInv s) :
    TxInv ((s.switchTxPin .gpio).setTxPhase .idleHigh) := by
  obtain ⟨hx, -, h0, -, -, he⟩ := h
  exact ⟨hx, nofun, h0, fun _ => rfl, by simp [isGpioPhase], by simpa [hp] using he⟩

theorem one_le_txCapacity {q : Params} (h : q.Legal) : 1 ≤ q.txCapacity := by
  obtain ⟨-, -, hcap, -⟩ := h
  exact hcap

theorem txInv_pinGiven (hp : s.txPhase = .pinAf) (hcap : 1 ≤ s.params.txCapacity) (h : TxInv s) :
    TxInv (((s.switchTxPin .af).setTxIndex 0).setTxPhase .send) := by
  obtain ⟨-, -, h0, ha, -, -⟩ := h
  exact ⟨Nat.zero_le _, fun _ => hcap, h0, by simpa [hp, isPulsePhase] using ha, by simp [isGpioPhase], by simp⟩

/-- The successor of a pulse phase is a `GPIO` phase too, and the wait is over when it is entered. -/
theorem txInv_pulse {n : Nat} {l : Bool} {succ : TxPhase} (hp : isPulsePhase s.txPhase = true)
    (hsucc : isGpioPhase succ = true) (hc : s.cyc < modulus s.params) (h : TxInv s) :
    TxInv (pulse n l succ s) := by
  have h' := h
  obtain ⟨hx, hsend, h0, ha, hm, he⟩ := h
  rcases pulse_cases n l succ s with ⟨-, e⟩ | ⟨-, -, e⟩ | ⟨-, -, e⟩ <;> rw [e]
  · exact ⟨hx, hsend, hc, fun _ => hp, hm, he⟩
  · exact h'
  · have hgpio : isGpioPhase s.txPhase = true := by
      revert hp; cases s.txPhase <;> simp [isPulsePhase, isGpioPhase]
    refine ⟨hx, ?_, h0, nofun, by simp [hm.2 hgpio, hsucc], ?_⟩
    · rintro rfl; cases hsucc
    · intro hf
      rcases he hf with hq | hq <;> rw [hq] at hp <;> cases hp

theorem txInv_sendByte (hp : s.txPhase = .send) (hx : s.txIndex < s.params.txCapacity) (h : TxInv s) :
    TxInv (sendByte s) := by
  obtain ⟨-, -, h0, ha, hm, -⟩ := h
  have hb : s.waitArmed = false := by simpa [hp, isPulsePhase] using ha
  have hg : s.txPinMode ≠ .gpio := by simpa [hp, isGpioPhase] using hm
  rcases sendByte_cases s with ⟨hn, e⟩ | ⟨hn, e⟩ <;> rw [e]
  · exact ⟨hx, fun _ => by simp; omega, h0, by simp [hb], by simp [hp, hg, isGpioPhase], fun _ => .inr hp⟩
  · exact ⟨hx, nofun, h0, by simp [hb], by simp [hg, isGpioPhase], fun _ => .inl rfl⟩

theorem txInv_drained {b : Byte} (h : TxInv s) : TxInv (s.log (.frame b)).setTxe := by
  obtain ⟨hx, hsend, h0, ha, hm, -⟩ := h
  exact ⟨hx, hsend, h0, ha, hm, nofun⟩

/-- A turn of a pulse. -/
theorem blockInv_pulse {n : Nat} {l : Bool} {succ : TxPhase} (hi : s.inited = true)
    (hp : isPulsePhase s.txPhase = true) (hsucc : isGpioPhase succ = true) (h : BlockInv s) :
    BlockInv (pulse n l succ s) := by
  obtain ⟨hl, hc, hb, hr, ht, hu⟩ := h.parts hi
  have ht' := txInv_pulse (n := n) (l := l) hp hsucc hc ht
  rw [pulse_frame] at ht' ⊢
  exact blockInv_of_parts hi hl hc hb hr ht' hu

theorem blockInv_sendByte (hi : s.inited = true) (hp : s.txPhase = .send)
    (hx : s.txIndex < s.params.txCapacity) (h : BlockInv s) : BlockInv (sendByte s) := by
  obtain ⟨hl, hc, hb, hr, ht, hu⟩ := h.parts hi
  have ht' := txInv_sendByte hp hx ht
  rw [sendByte_frame] at ht' ⊢
  exact blockInv_of_parts hi hl hc hb hr ht' hu

/-- Every operation but a bare micro-operation keeps the invariant of the block. -/
theorem Effect.blockInv (h : Effect i s t) (hm : i.isMicroOp = false) (hs : BlockInv s) : BlockInv t := by
  cases h with
  | init => exact blockInv_construct hs
  | returned | lostEvent | noFlags | nothingToDrain | lineEnabled | sendWaits => exact hs
  | stored idx val hi hp hx => exact blockInv_setTxBuffer_write val hx hs
  | ticked n => exact blockInv_advance n hs
  | received data he hi => exact blockInv_storeSlot data hi hs
  | freed hi =>
    obtain ⟨hl, hc, hb, hr, ht, hu⟩ := hs.parts hi
    exact blockInv_of_parts hi hl hc hb (rxInv_setRxReady_false hr) ht hu
  | broke rxne data he hi =>
    obtain ⟨hl, hc, hb, -, ht, hu⟩ := hs.parts hi
    exact blockInv_of_parts hi hl hc hb rxInv_setRxPosition_zero ht hu
  | started hi hp he =>
    obtain ⟨hl, hc, hb, hr, ht, hu⟩ := hs.parts hi
    exact blockInv_of_parts hi hl hc hb hr (txInv_started hp he ht) hu
  | drained hi =>
    obtain ⟨hl, hc, hb, hr, ht, hu⟩ := hs.parts hi
    exact blockInv_of_parts hi hl hc hb hr (txInv_drained ht) hu
  | pinTaken hr =>
    obtain ⟨hi, hp⟩ := hr.admitted hm rfl
    obtain ⟨hl, hc, hb, hr, ht, hu⟩ := hs.parts hi
    exact blockInv_of_parts hi hl hc hb hr (txInv_pinTaken hp ht) hu
  | idleHigh hr | breakLow hr | mabHigh hr =>
    obtain ⟨hi, hp⟩ := hr.admitted hm rfl
    exact blockInv_pulse hi (by rw [hp]; rfl) rfl hs
  | pinGiven hr =>
    obtain ⟨hi, hp⟩ := hr.admitted hm rfl
    obtain ⟨hl, hc, hb, hr, ht, hu⟩ := hs.parts hi
    exact blockInv_of_parts hi hl hc hb hr (txInv_pinGiven hp (one_le_txCapacity hl) ht) hu
  | sent hr he hx =>
    obtain ⟨hi, hp⟩ := hr.admitted hm rfl
    exact blockInv_sendByte hi hp hx hs

/-- Settles O45: a step that answers a next state has the effect of an operation that is no bare
micro-operation, and each such effect keeps the invariant. -/
theorem stepKeepsInv : Obligations.StepKeepsInv := by
  intro s t hs h
  rcases step_effect h with ⟨-, rfl⟩ | ⟨w, ws, i, -, hd, he⟩
  · exact hs
  · exact he.blockInv (isMicroOp_of_decode_word hd) hs

/-! ### Power-on and `INIT` -/

theorem exec_init_fresh (hi : s.inited = false) : exec .init s = .next s.construct := by
  simp [exec, execInit, hi]

theorem exec_init_again (hi : s.inited = true) : exec .init s = .refused .alreadyInitialised := by
  simp [exec, execInit, hi]

/-- Settles O7: the four values of the power-on state. -/
theorem powerOnState : Obligations.PowerOnState := ⟨rfl, rfl, rfl, rfl⟩

/-- Settles O8: before `INIT` the invariants ask only for legal parameters, the counter's range, empty
buffers and an empty log. -/
theorem resetMeetsInvariants : Obligations.ResetMeetsInvariants := by
  have hl : State.reset.params.Legal := by decide
  have hc : State.reset.cyc < modulus State.reset.params := modulus_pos _
  exact ⟨⟨hl, hc, ⟨rfl, rfl, rfl, rfl⟩, fun _ => rfl, nofun⟩, ⟨rfl, nofun⟩, rfl, rfl⟩

/-- Settles O9: `State.construct` is the state of R41 with the model's free values. -/
theorem initConstructsDriver : Obligations.InitConstructsDriver := by
  intro s
  refine ⟨fun hi => ⟨_, _, _, ?_, exec_init_fresh hi⟩, exec_init_again, by decide⟩
  exact Nat.mod_lt _ (modulus_pos s.params)

/-! ### Who writes what -/

/-- What runs a micro-operation is it or `TX_STEP`. -/
theorem Runs.op (h : Runs i m p s) : i = m ∨ i = .txStep :=
  h.imp_right And.left

/-- Settles O41: each effect names its operation and the fields it writes. -/
theorem onlyTheseOperationsWrite : Obligations.OnlyTheseOperationsWrite := by
  intro i s t h
  cases exec_effect h with
  | init => simp [State.construct]
  | returned | lostEvent | noFlags | nothingToDrain | sendWaits => simp
  | freed | started | stored | broke | ticked | drained | lineEnabled => simp
  | received data => rw [storeSlot_frame]; simp
  | pinTaken hr | pinGiven hr => rcases hr.op with rfl | rfl <;> simp [Instr.isMicroOp]
  | idleHigh hr | breakLow hr | mabHigh hr =>
    rw [pulse_frame]
    rcases hr.op with rfl | rfl <;> simp [Instr.isMicroOp]
  | sent hr =>
    rw [sendByte_frame]
    rcases hr.op with rfl | rfl <;> simp [Instr.isMicroOp]

/-- Settles O40: of the three environment operations each writes only its own fields. -/
theorem environmentFrame : Obligations.EnvironmentFrame := by
  intro i s t hg h
  cases i with
  | envTick | envIrqEn => cases h; rfl
  | envTxDrain =>
    obtain ⟨-, h⟩ := whenInited_next h
    split at h <;> cases h <;> rfl
  | _ => cases hg

/-- Settles O42: only `INIT` writes the setup, and an initialised block refuses it; only `ENV_IRQ_EN`
writes the interrupt line, and it sets it. -/
theorem setupIsForever : Obligations.SetupIsForever := by
  intro i s t hi h
  have hinit : i ≠ .init := by
    rintro rfl
    rw [exec_init_again hi] at h
    cases h
  obtain ⟨hset, -, -, -, -, -, -, -, hirq, -, -, -, -, -, -, hparams, -⟩ := onlyTheseOperationsWrite i s t h
  have hset := fun hd => hinit (hset hd)
  simp only [imp_false, not_or, not_not] at hset
  obtain ⟨hcfg, huart, hrx, hdir, hlevel, hinited⟩ := hset
  refine ⟨hinited.trans hi, hcfg, huart, hrx, hdir, hlevel, hparams, fun he => ?_⟩
  by_contra hd
  obtain rfl := hirq (by simpa [he] using hd)
  cases h
  exact hd rfl

/-- `RXB_LD` has a step only while the foreground owns the buffer. -/
theorem rxReady_of_exec_rxbLd {idx : Nat} (h : exec (.rxbLd idx) s = .next t) : s.rxReady = true := by
  obtain ⟨-, -, h⟩ := foregroundOp_next h
  split at h
  · cases h
  · simpa using ‹¬s.rxReady = false›

/-- On an initialised block only a packet's release, a break and a data byte touch the receive side. -/
theorem Effect.receiveSide (h : Effect i s t) (hi : s.inited = true) :
    (s.rxReady = true → t.rxBuffer = s.rxBuffer ∧ t.rxPosition ≤ s.rxPosition) ∧
    (s.rxReady = false → t.rxReady = true →
      s.rxPosition + 1 = s.params.rxCapacity ∧ ∃ data, i = .rxIrqData data) ∧
    (s.rxReady = true → t.rxReady = false → i = .freePkt) := by
  cases h with
  | init hf => rw [hi] at hf; cases hf
  | freed | broke => simp
  | received data =>
    rcases storeSlot_cases data s with ⟨-, hr, e⟩ | ⟨hlast, hr, e⟩ | ⟨-, e⟩ <;> rw [e]
    · simp [hr]
    · simp [hr, hlast]
    · simp +contextual
  | idleHigh | breakLow | mabHigh => rw [pulse_frame]; simp +contextual
  | sent => rw [sendByte_frame]; simp +contextual
  | _ => simp +contextual

/-- Settles O35: by the effects on the receive side and the check of `RXB_LD`. -/
theorem bufferOwnership : Obligations.BufferOwnership := by
  intro i s t hi h
  obtain ⟨hfrozen, hset, hclear⟩ := (exec_effect h).receiveSide hi
  refine ⟨hfrozen, hset, hclear, ?_⟩
  rintro hr idx rfl
  rw [rxReady_of_exec_rxbLd h] at hr
  cases hr

/-! ### The log and time -/

/-- An entry of a pin's mode or level comes with the pin's change. `INIT` changes the pin and logs nothing,
but there `BlockInv` says that the log is empty. -/
theorem Effect.logTellsPin (h : Effect i s t) (hs : BlockInv s) (hl : LogTellsPin s) : LogTellsPin t := by
  have hpulse (n l succ) : LogTellsPin (pulse n l succ s) := by
    rcases pulse_cases n l succ s with ⟨-, e⟩ | ⟨-, -, e⟩ | ⟨-, -, e⟩ <;> rw [e]
    · exact ⟨(lineMode_driveTx ..).trans hl.1, latchLevel_driveTx ..⟩
    · exact hl
    · exact hl
  cases h with
  | init hi =>
    obtain ⟨-, -, -, hempty, -⟩ := hs
    have hlog : s.construct.wireLog = [] := hempty hi
    simp [LogTellsPin, lineMode, latchLevel, hlog, lastMode, lastLevel]
  | drained => exact ⟨(lineMode_logFrame ..).trans hl.1, (latchLevel_logFrame ..).trans hl.2⟩
  | pinTaken | pinGiven => exact ⟨lineMode_switchTxPin .., (latchLevel_switchTxPin ..).trans hl.2⟩
  | idleHigh | breakLow | mabHigh => exact hpulse ..
  | received => rw [storeSlot_frame]; exact hl
  | sent => rw [sendByte_frame]; exact hl
  | _ => exact hl

/-- Settles O48: every effect on the log sets the pin alike. -/
theorem stepKeepsLogTellsPin : Obligations.StepKeepsLogTellsPin := by
  intro s t hs hl h
  rcases step_effect h with ⟨-, rfl⟩ | ⟨w, ws, i, -, -, he⟩
  · exact hl
  · exact he.logTellsPin hs hl

/-- Settles O49: only a tick writes `cyc` and `now`, and it adds the same to both. -/
theorem counterFollowsNow : Obligations.CounterFollowsNow := by
  intro s t h
  rcases step_next h with ⟨-, rfl⟩ | ⟨w, ws, i, -, -, h⟩
  · exact ⟨rfl, le_rfl⟩
  · by_cases htick : ∃ n, i = .envTick n
    · obtain ⟨n, rfl⟩ := htick
      cases h
      simp [modulus, Nat.add_assoc, Nat.add_comm n]
    · obtain ⟨-, -, -, -, -, -, -, -, -, -, -, -, -, htime, -⟩ := onlyTheseOperationsWrite i _ t h
      have hsame := fun hd => htick (htime hd)
      simp only [imp_false, not_or, not_not] at hsame
      obtain ⟨hcyc, hnow⟩ := hsame
      simp [hcyc, hnow]

/-! ### The level of the line -/

theorem lineMode_of_last {early late : List LogEntry} {n : Nat} {m : TxPinMode}
    (h : s.wireLog = early ++ ⟨n, .mode m⟩ :: late) (hlate : ∀ e ∈ late, ∀ k, e.event ≠ .mode k) :
    lineMode s = m := by
  simp [lineMode, h, lastMode_eq_none hlate, WireEvent.mode?]

theorem latchLevel_of_last {first rest : List LogEntry} {k : Nat} {l : Bool}
    (h : s.wireLog = first ++ ⟨k, .level l⟩ :: rest) (hrest : ∀ e ∈ rest, ∀ x, e.event ≠ .level x) :
    latchLevel s = l := by
  simp [latchLevel, h, lastLevel_eq_none hrest, WireEvent.level?]

/-- Settles O55: the last `Mode` entry decides which of the two readings applies. -/
theorem lineLevelFollowsLog : Obligations.LineLevelFollowsLog := by
  intro s early late n m h hlate
  have hmode := lineMode_of_last h hlate
  refine ⟨?_, ?_⟩
  · rintro rfl first rest k l hlevel hrest
    rw [lineLevel_gpio hmode, latchLevel_of_last hlevel hrest]
  · rintro rfl he hframe
    exact lineLevel_af hmode (mayCarryFrame_eq_false he hframe)

theorem latchLevel_of_lastEntry {e : LogEntry} {l : Bool} (h : lastEntry s = some e) (he : e.event = .level l) :
    latchLevel s = l := by
  obtain ⟨first, hlog⟩ := List.getLast?_eq_some_iff.1 h
  obtain ⟨k, x⟩ := e
  subst he
  exact latchLevel_of_last hlog nofun

theorem latchLevel_of_pulseRunning {l : Bool} (h : pulseRunning s l) : latchLevel s = l := by
  unfold pulseRunning at h
  split at h
  · exact latchLevel_of_lastEntry ‹_› h.1
  · cases h

theorem latchLevel_of_pulseOver {l : Bool} {n : Nat} (h : pulseOver s l n) : latchLevel s = l := by
  unfold pulseOver at h
  split at h
  · exact latchLevel_of_lastEntry ‹_› h.1
  · cases h

/-- In a `GPIO` phase the line has the latch's level. -/
theorem lineLevel_of_gpioPhase (ht : TxInv s) (hl : LogTellsPin s) (hp : s.txPhase = p)
    (hg : isGpioPhase p = true) : lineLevel s = latchLevel s := by
  obtain ⟨-, -, -, -, hmode, -⟩ := ht
  exact lineLevel_gpio (hl.1.trans (hmode.2 (hp ▸ hg)))

/-- Outside them the pin is the UART's. -/
theorem lineMode_of_not_gpioPhase (ht : TxInv s) (hl : LogTellsPin s) (hp : s.txPhase = p)
    (hg : isGpioPhase p = false) : lineMode s = .af := by
  obtain ⟨-, -, -, -, hmode, -⟩ := ht
  rw [hl.1]
  cases hm : s.txPinMode with
  | af => rfl
  | gpio => rw [← hp, hmode.1 hm] at hg; cases hg

/-- Settles O56: in the `GPIO` phases the line has the latch's level, which is the level of the pulse that
runs or is over; in the others the pin is the UART's. -/
theorem lineLevelInEachPhase : Obligations.LineLevelInEachPhase := by
  intro s hs hl hpulse hi
  obtain ⟨-, -, -, -, ht, -⟩ := hs.parts hi
  have hwire := hpulse.2 hi
  unfold phaseOnWire at hwire
  refine ⟨fun hp _ => ?_, fun hp ha => ?_, fun hp => ?_, fun hp => ?_, fun hp => ?_, fun hp he hframe => ?_⟩
  · rw [lineLevel_of_gpioPhase ht hl hp rfl, hl.2]
  · simp only [hp, ha] at hwire
    rw [lineLevel_of_gpioPhase ht hl hp rfl, latchLevel_of_pulseRunning hwire]
  · rw [lineLevel_of_gpioPhase ht hl hp rfl]
    cases ha : s.waitArmed <;> simp only [hp, ha] at hwire
    · exact latchLevel_of_pulseOver hwire
    · exact latchLevel_of_pulseRunning hwire
  · rw [lineLevel_of_gpioPhase ht hl hp rfl]
    cases ha : s.waitArmed <;> simp only [hp, ha] at hwire
    · exact latchLevel_of_pulseOver hwire
    · exact latchLevel_of_pulseRunning hwire
  · simp only [hp] at hwire
    rw [lineLevel_of_gpioPhase ht hl hp rfl, latchLevel_of_pulseOver hwire]
  · refine lineLevel_af ?_ (mayCarryFrame_eq_false he hframe)
    rcases hp with hp | hp | hp <;> exact lineMode_of_not_gpioPhase ht hl hp rfl

end Sys2Proof.Machine
end

section
/-!
PROOF. Encoding: the two round trips, the opcode map and the step.
-/

namespace Sys2Proof

variable {w : OpWord} {i : Instr} {f : Format} {opc low : Nat}

/-! ### The fields of a word -/

theorem opcOf_lt (w : OpWord) : opcOf w < 256 := Nat.mod_lt _ (by decide)

theorem nOf_lt (w : OpWord) : nOf w < 16777216 := Nat.mod_lt _ (by decide)

theorem idxOf_lt (w : OpWord) : idxOf w < 1024 := Nat.mod_lt _ (by decide)

theorem nOf_packWord (ho : opc < 256) (hl : low < 16777216) : nOf (packWord opc low) = low := by
  rw [nOf, slice_packWord ho hl (by decide) (by decide), Nat.pow_zero, Nat.div_one]
  exact Nat.mod_eq_of_lt hl

/-- A slice below the opcode is a slice of the 24 low bits. -/
theorem slice_eq_nOf (w : OpWord) {hi lo : Nat} (h : hi < 24) (h' : lo ≤ hi) :
    slice w hi lo = nOf w / 2 ^ lo % 2 ^ (hi + 1 - lo) := by
  conv_lhs => rw [← packWord_opcOf_nOf w]
  exact slice_packWord (opcOf_lt w) (nOf_lt w) h h'

theorem idxOf_eq (w : OpWord) : idxOf w = nOf w / 256 % 1024 := slice_eq_nOf w (by decide) (by decide)

theorem valOf_toNat (w : OpWord) : (valOf w).toNat = nOf w % 256 := by
  rw [valOf, slice_eq_nOf w (by decide) (by decide), BitVec.toNat_ofNat]
  omega

theorem feOf_toNat (w : OpWord) : (feOf w).toNat = nOf w / 512 % 2 := by
  rw [feOf, slice_eq_nOf w (by decide) (by decide)]
  rcases Nat.mod_two_eq_zero_or_one (nOf w / 512) with h | h <;> simp [h]

theorem rxneOf_toNat (w : OpWord) : (rxneOf w).toNat = nOf w / 256 % 2 := by
  rw [rxneOf, slice_eq_nOf w (by decide) (by decide)]
  rcases Nat.mod_two_eq_zero_or_one (nOf w / 256) with h | h <;> simp [h]

/-- The bits below the opcode that the operands of a format spell (30_encoding.md R91). -/
def Format.operandBits (f : Format) (w : OpWord) : Nat :=
  match f with
  | .f0 => 0
  | .fi => idxOf w * 2 ^ 8
  | .fiv => idxOf w * 2 ^ 8 + (valOf w).toNat
  | .ev => packEvent (feOf w) (rxneOf w) (valOf w)
  | .en => nOf w

/-- The reserved bits are clear exactly when the operands spell everything below the opcode. -/
theorem Format.reservedClear_iff (f : Format) (w : OpWord) :
    f.reservedClear w = true ↔ nOf w = f.operandBits w := by
  have hn := nOf_lt w
  cases f with
  | f0 => simp [reservedClear, operandBits, nOf]
  | fi =>
    simp only [reservedClear, operandBits, idxOf_eq, Bool.and_eq_true, beq_iff_eq]
    rw [slice_eq_nOf w (by decide) (by decide), slice_eq_nOf w (by decide) (by decide)]
    omega
  | fiv =>
    simp only [reservedClear, operandBits, idxOf_eq, valOf_toNat, beq_iff_eq]
    rw [slice_eq_nOf w (by decide) (by decide)]
    omega
  | ev =>
    simp only [reservedClear, operandBits, packEvent, feOf_toNat, rxneOf_toNat, valOf_toNat, beq_iff_eq]
    rw [slice_eq_nOf w (by decide) (by decide)]
    omega
  | en => simp [reservedClear, operandBits]

/-! ### Decoder and encoder -/

/-- A word spells an operation when its opcode is assigned and the operands spell all the bits below it. -/
theorem decode_word_eq_ok : decode (.word w) = .ok i ↔
    ∃ f, formatOf (opcOf w) = some f ∧ operationOf w = some i ∧ nOf w = f.operandBits w := by
  change decodeWord w = .ok i ↔ _
  unfold decodeWord
  split
  · rename_i f j hf hop
    simp only [← Format.reservedClear_iff, hf, hop, Option.some.injEq, exists_eq_left']
    split <;> simp_all
  · rename_i hnone
    constructor
    · intro h; cases h
    · rintro ⟨f, hf, hop, -⟩
      exact (hnone f i hf hop).elim

/-! A word that a format with operands spells. -/

theorem decode_rxbLd {idx : Nat} (hx : idx < 1024) (ho : opcOf w = 0x10) (hn : nOf w = idx * 2 ^ 8) :
    decode (.word w) = .ok (.rxbLd idx) := by
  have hidx : idxOf w = idx := by rw [idxOf_eq]; omega
  exact decode_word_eq_ok.2 ⟨.fi, by rw [ho]; rfl, by simp [operationOf, ho, hidx], by rw [hn, ← hidx]; rfl⟩

theorem decode_txbLd {idx : Nat} (hx : idx < 1024) (ho : opcOf w = 0x11) (hn : nOf w = idx * 2 ^ 8) :
    decode (.word w) = .ok (.txbLd idx) := by
  have hidx : idxOf w = idx := by rw [idxOf_eq]; omega
  exact decode_word_eq_ok.2 ⟨.fi, by rw [ho]; rfl, by simp [operationOf, ho, hidx], by rw [hn, ← hidx]; rfl⟩

theorem decode_txbSt {idx : Nat} {val : Byte} (hx : idx < 1024) (ho : opcOf w = 0x12)
    (hn : nOf w = idx * 2 ^ 8 + val.toNat) : decode (.word w) = .ok (.txbSt idx val) := by
  have hv := val.isLt
  have hidx : idxOf w = idx := by rw [idxOf_eq]; omega
  have hval : valOf w = val := BitVec.eq_of_toNat_eq (by rw [valOf_toNat]; omega)
  exact decode_word_eq_ok.2
    ⟨.fiv, by rw [ho]; rfl, by simp [operationOf, ho, hidx, hval], by rw [hn, ← hidx, ← hval]; rfl⟩

theorem decode_rxIrq {fe rxne : Bool} {data : Byte} (ho : opcOf w = 0x80)
    (hn : nOf w = packEvent fe rxne data) : decode (.word w) = .ok (.rxIrq fe rxne data) := by
  have hd := data.isLt
  have hf := fe.toNat_lt
  have hr := rxne.toNat_lt
  have hbool : Function.Injective Bool.toNat := Function.LeftInverse.injective Bool.ofNat_toNat
  have hfe : feOf w = fe := hbool (by rw [feOf_toNat, hn, packEvent]; omega)
  have hrxne : rxneOf w = rxne := hbool (by rw [rxneOf_toNat, hn, packEvent]; omega)
  have hdata : valOf w = data := BitVec.eq_of_toNat_eq (by rw [valOf_toNat, hn, packEvent]; omega)
  exact decode_word_eq_ok.2
    ⟨.ev, by rw [ho]; rfl, by simp [operationOf, ho, hfe, hrxne, hdata],
      by rw [hn, ← hfe, ← hrxne, ← hdata]; rfl⟩

theorem decode_envTick {n : Nat} (ho : opcOf w = 0xE0) (hn : nOf w = n) :
    decode (.word w) = .ok (.envTick n) :=
  decode_word_eq_ok.2 ⟨.en, by rw [ho]; rfl, by simp [operationOf, ho, hn], rfl⟩

/-- `RX_IRQ` has one format, whatever its flags (30_encoding.md R97). -/
theorem encode_rxIrq (fe rxne : Bool) (data : Byte) :
    encode (.rxIrq fe rxne data) = .word (packWord 0x80 (packEvent fe rxne data)) := by
  cases fe <;> cases rxne <;> rfl

theorem wellFormed_rxIrq (fe rxne : Bool) (data : Byte) : (Instr.rxIrq fe rxne data).wellFormed = true := by
  cases fe <;> cases rxne <;> rfl

theorem decode_encode_rxIrq (fe rxne : Bool) (data : Byte) :
    decode (encode (.rxIrq fe rxne data)) = .ok (.rxIrq fe rxne data) := by
  have hl := Laws.OpcodeAgent.packEvent_lt fe rxne data
  rw [encode_rxIrq]
  exact decode_rxIrq (opcOf_packWord (by decide) hl) (nOf_packWord (by decide) hl)

/-- Settles O1: an operation's word has its opcode, and below it the bits of its operands; a word with these
fields decodes to it. Every other operation has one code. -/
theorem decodeInvertsEncode : Obligations.DecodeInvertsEncode := by
  intro i h
  cases i with
  | rxbLd idx =>
    have hx : idx < 1024 := by simpa [Instr.wellFormed] using h
    exact decode_rxbLd hx (opcOf_packWord (by decide) (by omega)) (nOf_packWord (by decide) (by omega))
  | txbLd idx =>
    have hx : idx < 1024 := by simpa [Instr.wellFormed] using h
    exact decode_txbLd hx (opcOf_packWord (by decide) (by omega)) (nOf_packWord (by decide) (by omega))
  | txbSt idx val =>
    have hx : idx < 1024 := by simpa [Instr.wellFormed] using h
    have hv := val.isLt
    exact decode_txbSt hx (opcOf_packWord (by decide) (by omega)) (nOf_packWord (by decide) (by omega))
  | rxIrqBreak rxne data => exact decode_encode_rxIrq true rxne data
  | rxIrqData data => exact decode_encode_rxIrq false true data
  | rxIrqNone data => exact decode_encode_rxIrq false false data
  | envTick n =>
    have hx : n < 16777216 := by simpa [Instr.wellFormed] using h
    exact decode_envTick (opcOf_packWord (by decide) hx) (nOf_packWord (by decide) hx)
  | _ => decide

/-- The code of a word's operation is put together from the word's opcode and its operands' bits. -/
theorem encode_of_operationOf (hf : formatOf (opcOf w) = some f) (hop : operationOf w = some i) :
    encode i = .word (packWord (opcOf w) (f.operandBits w)) ∧ i.wellFormed = true := by
  unfold operationOf at hop
  split at hop <;> cases hop <;> rename_i ho <;> rw [ho] at hf ⊢ <;> cases hf
  case h_9 | h_10 | h_11 => exact ⟨rfl, by simpa [Instr.wellFormed] using idxOf_lt w⟩
  case h_12 => exact ⟨encode_rxIrq .., wellFormed_rxIrq ..⟩
  case h_13 => exact ⟨rfl, by simpa [Instr.wellFormed] using nOf_lt w⟩
  all_goals exact ⟨rfl, rfl⟩

/-- Settles O2: a valid word is its opcode and its operands' bits; of the eight phases the six that select a
micro-operation are its codes. -/
theorem encodeInvertsDecode : Obligations.EncodeInvertsDecode := by
  intro c i h
  cases c with
  | word w =>
    obtain ⟨f, hf, hop, hn⟩ := decode_word_eq_ok.1 h
    have he := encode_of_operationOf hf hop
    rwa [← hn, packWord_opcOf_nOf] at he
  | phase p =>
    change decodePhase p = .ok i at h
    unfold decodePhase at h
    split at h <;> cases h <;> rename_i hp <;>
      exact ⟨congrArg Code.phase (BitVec.eq_of_toNat_eq hp.symm), rfl⟩

/-! ### The opcode map (30_encoding.md R93) -/

/-- The bits from `hi` down to `lo`, set. -/
def fieldMask (hi lo : Nat) : OpWord := BitVec.ofNat 32 ((2 ^ (hi + 1 - lo) - 1) * 2 ^ lo)

theorem and_fieldMask (w : OpWord) {hi lo : Nat} (h : hi < 32) (h' : lo ≤ hi) :
    (w &&& fieldMask hi lo).toNat = slice w hi lo * 2 ^ lo := by
  apply Nat.eq_of_testBit_eq
  intro j
  simp only [fieldMask, slice, BitVec.toNat_and, BitVec.toNat_ofNat, Nat.testBit_and, Nat.testBit_mod_two_pow,
    Nat.testBit_mul_two_pow, Nat.testBit_two_pow_sub_one, Nat.testBit_div_two_pow]
  by_cases hj : lo ≤ j
  · rw [Nat.sub_add_cancel hj]
    by_cases hj' : j - lo < hi + 1 - lo
    · have : j < 32 := by omega
      simp [hj, hj', this]
    · simp [hj']
  · simp [hj]

/-- The bits of a word outside a mask and those inside it make up the word. -/
theorem and_not_add_and (w m : OpWord) : (w &&& ~~~m).toNat + (w &&& m).toNat = w.toNat := by
  have hdisjoint : w &&& ~~~m &&& (w &&& m) = 0#32 := by
    ext j
    simp +contextual
  have hall : ~~~m ||| m = BitVec.allOnes 32 := by
    ext j
    simp
  rw [← BitVec.toNat_add_of_and_eq_zero hdisjoint, BitVec.add_eq_or_of_and_eq_zero _ _ hdisjoint,
    ← BitVec.and_or_distrib_left, hall, BitVec.and_allOnes]

/-- A row whose mask leaves out one field below the opcode selects the words that have the row's bits and
any value in that field. -/
theorem matchesWord_iff {r : OpcodeRow} (opc low hi lo : Nat) (hb : r.bits.toNat = opc * 16777216 + low)
    (hm : r.mask = ~~~fieldMask hi lo) (h : hi < 24) (h' : lo ≤ hi) :
    r.matchesWord w = true ↔
      opcOf w * 16777216 + nOf w = opc * 16777216 + low + nOf w / 2 ^ lo % 2 ^ (hi + 1 - lo) * 2 ^ lo := by
  have hsplit := and_not_add_and w (fieldMask hi lo)
  have hw := packWord_toNat (opcOf_lt w) (nOf_lt w)
  rw [packWord_opcOf_nOf] at hw
  rw [and_fieldMask w (by omega) h', slice_eq_nOf w h h', hw] at hsplit
  simp only [OpcodeRow.matchesWord, beq_iff_eq, ← BitVec.toNat_inj, hm, hb]
  omega

theorem matches_rxbLd : OpcodeRow.matchesWord ⟨"RXB_LD", 0x10000000, 0xFFFC00FF⟩ w = true ↔
    opcOf w = 0x10 ∧ nOf w = idxOf w * 2 ^ 8 := by
  have hn := nOf_lt w
  rw [matchesWord_iff 0x10 0 17 8 rfl rfl (by decide) (by decide), idxOf_eq]
  omega

theorem matches_txbLd : OpcodeRow.matchesWord ⟨"TXB_LD", 0x11000000, 0xFFFC00FF⟩ w = true ↔
    opcOf w = 0x11 ∧ nOf w = idxOf w * 2 ^ 8 := by
  have hn := nOf_lt w
  rw [matchesWord_iff 0x11 0 17 8 rfl rfl (by decide) (by decide), idxOf_eq]
  omega

theorem matches_txbSt : OpcodeRow.matchesWord ⟨"TXB_ST", 0x12000000, 0xFFFC0000⟩ w = true ↔
    opcOf w = 0x12 ∧ nOf w = idxOf w * 2 ^ 8 + (valOf w).toNat := by
  have hn := nOf_lt w
  rw [matchesWord_iff 0x12 0 17 0 rfl rfl (by decide) (by decide), idxOf_eq, valOf_toNat]
  omega

theorem matches_rxIrqBreak : OpcodeRow.matchesWord ⟨"RX_IRQ.BREAK", 0x80000200, 0xFFFFFE00⟩ w = true ↔
    opcOf w = 0x80 ∧ nOf w = packEvent true (rxneOf w) (valOf w) := by
  have hn := nOf_lt w
  rw [matchesWord_iff 0x80 0x200 8 0 rfl rfl (by decide) (by decide), packEvent, rxneOf_toNat, valOf_toNat,
    Bool.toNat_true]
  omega

theorem matches_rxIrqData : OpcodeRow.matchesWord ⟨"RX_IRQ.DATA", 0x80000100, 0xFFFFFF00⟩ w = true ↔
    opcOf w = 0x80 ∧ nOf w = packEvent false true (valOf w) := by
  have hn := nOf_lt w
  rw [matchesWord_iff 0x80 0x100 7 0 rfl rfl (by decide) (by decide), packEvent, valOf_toNat,
    Bool.toNat_true, Bool.toNat_false]
  omega

theorem matches_rxIrqNone : OpcodeRow.matchesWord ⟨"RX_IRQ.NONE", 0x80000000, 0xFFFFFF00⟩ w = true ↔
    opcOf w = 0x80 ∧ nOf w = packEvent false false (valOf w) := by
  have hn := nOf_lt w
  rw [matchesWord_iff 0x80 0 7 0 rfl rfl (by decide) (by decide), packEvent, valOf_toNat, Bool.toNat_false]
  omega

theorem matches_envTick : OpcodeRow.matchesWord ⟨"ENV_TICK", 0xE0000000, 0xFF000000⟩ w = true ↔
    opcOf w = 0xE0 := by
  have hn := nOf_lt w
  rw [matchesWord_iff 0xE0 0 23 0 rfl rfl (by decide) (by decide)]
  omega

/-- The rows with operands. -/
theorem operand_rows : ∀ r ∈ opcodeRows, r.mask ≠ 0xFFFFFFFF →
    r = ⟨"RXB_LD", 0x10000000, 0xFFFC00FF⟩ ∨ r = ⟨"TXB_LD", 0x11000000, 0xFFFC00FF⟩ ∨
    r = ⟨"TXB_ST", 0x12000000, 0xFFFC0000⟩ ∨ r = ⟨"RX_IRQ.BREAK", 0x80000200, 0xFFFFFE00⟩ ∨
    r = ⟨"RX_IRQ.DATA", 0x80000100, 0xFFFFFF00⟩ ∨ r = ⟨"RX_IRQ.NONE", 0x80000000, 0xFFFFFF00⟩ ∨
    r = ⟨"ENV_TICK", 0xE0000000, 0xFF000000⟩ := by decide

/-- A row without operands has one word, and it spells the row's operation. -/
theorem decode_bits_of_full_mask : ∀ r ∈ opcodeRows, r.mask = 0xFFFFFFFF →
    (decode (.word r.bits)).toOption.map Instr.mnemonic = some r.mnemonic := by decide

/-- A word that a row selects spells an operation of the row. -/
theorem decode_of_matchesWord {r : OpcodeRow} (hr : r ∈ opcodeRows) (h : r.matchesWord w = true) :
    ∃ i, decode (.word w) = .ok i ∧ i.mnemonic = r.mnemonic := by
  by_cases hfull : r.mask = 0xFFFFFFFF
  · obtain rfl : w = r.bits := by
      rw [OpcodeRow.matchesWord, hfull, beq_iff_eq] at h
      exact BitVec.and_allOnes.symm.trans h
    have hd := decode_bits_of_full_mask r hr hfull
    cases hc : decode (.word r.bits) with
    | ok i => exact ⟨i, rfl, by simpa [hc, Except.toOption] using hd⟩
    | error e => simp [hc, Except.toOption] at hd
  · rcases operand_rows r hr hfull with rfl | rfl | rfl | rfl | rfl | rfl | rfl
    · obtain ⟨ho, hn⟩ := matches_rxbLd.1 h
      exact ⟨_, decode_rxbLd (idxOf_lt w) ho hn, rfl⟩
    · obtain ⟨ho, hn⟩ := matches_txbLd.1 h
      exact ⟨_, decode_txbLd (idxOf_lt w) ho hn, rfl⟩
    · obtain ⟨ho, hn⟩ := matches_txbSt.1 h
      exact ⟨_, decode_txbSt (idxOf_lt w) ho hn, rfl⟩
    · obtain ⟨ho, hn⟩ := matches_rxIrqBreak.1 h
      exact ⟨_, decode_rxIrq ho hn, rfl⟩
    · obtain ⟨ho, hn⟩ := matches_rxIrqData.1 h
      exact ⟨_, decode_rxIrq ho hn, rfl⟩
    · obtain ⟨ho, hn⟩ := matches_rxIrqNone.1 h
      exact ⟨_, decode_rxIrq ho hn, rfl⟩
    · exact ⟨_, decode_envTick (matches_envTick.1 h) rfl, rfl⟩

/-- The row of an operation's mnemonic selects its word. -/
theorem row_of_decode (h : decode (.word w) = .ok i) :
    ∃ r ∈ opcodeRows, r.mnemonic = i.mnemonic ∧ r.matchesWord w = true := by
  obtain ⟨f, hf, hop, hn⟩ := decode_word_eq_ok.1 h
  unfold operationOf at hop
  split at hop <;> cases hop <;> rename_i ho <;> rw [ho] at hf <;> cases hf
  case h_9 => exact ⟨_, by decide, rfl, matches_rxbLd.2 ⟨ho, hn⟩⟩
  case h_10 => exact ⟨_, by decide, rfl, matches_txbLd.2 ⟨ho, hn⟩⟩
  case h_11 => exact ⟨_, by decide, rfl, matches_txbSt.2 ⟨ho, hn⟩⟩
  case h_12 =>
    rw [Format.operandBits] at hn
    cases hfe : feOf w with
    | true => exact ⟨_, by decide, rfl, matches_rxIrqBreak.2 ⟨ho, by rw [hn, hfe]⟩⟩
    | false =>
      cases hrx : rxneOf w with
      | true => exact ⟨_, by decide, rfl, matches_rxIrqData.2 ⟨ho, by rw [hn, hfe, hrx]⟩⟩
      | false => exact ⟨_, by decide, rfl, matches_rxIrqNone.2 ⟨ho, by rw [hn, hfe, hrx]⟩⟩
  case h_13 => exact ⟨_, by decide, rfl, matches_envTick.2 ho⟩
  all_goals
    rw [← packWord_opcOf_nOf w, ho, hn, Format.operandBits]
    decide

/-- The opcode of an operation's word tells its agent (30_encoding.md R94). -/
theorem agentOfOpcode_of_decode (h : decode (.word w) = .ok i) : agentOfOpcode (opcOf w) = some i.agent := by
  obtain ⟨-, -, hop, -⟩ := decode_word_eq_ok.1 h
  unfold operationOf at hop
  split at hop <;> cases hop <;> rename_i ho <;> rw [ho]
  case h_12 => cases feOf w <;> cases rxneOf w <;> rfl
  all_goals rfl

/-- No row selects a word that decodes to nothing. -/
theorem matchesWord_of_decode_error {e : DecodeError} (h : decode (.word w) = .error e) :
    ∀ r ∈ opcodeRows, r.matchesWord w = false := by
  intro r hr
  by_contra hm
  obtain ⟨i, hd, -⟩ := decode_of_matchesWord hr (by simpa using hm)
  rw [h] at hd
  cases hd

/-- A word that no row selects decodes to nothing. -/
theorem decode_error_of_no_row (h : ∀ r ∈ opcodeRows, r.matchesWord w = false) :
    ∃ e, decode (.word w) = .error e := by
  cases hd : decode (.word w) with
  | error e => exact ⟨e, rfl⟩
  | ok i =>
    obtain ⟨r, hr, -, hm⟩ := row_of_decode hd
    rw [h r hr] at hm
    cases hm

theorem eq_of_mnemonic_eq : ∀ r ∈ opcodeRows, ∀ q ∈ opcodeRows, r.mnemonic = q.mnemonic → r = q := by decide

/-- Settles O3: a selected word decodes to the row's operation; an operation's word is selected by a row of
its mnemonic, and no two rows share one. -/
theorem decoderAgreesWithOpcodeMap : Obligations.DecoderAgreesWithOpcodeMap := by
  intro w
  refine ⟨fun r hr => ⟨decode_of_matchesWord hr, ?_⟩,
    ⟨decode_error_of_no_row, fun ⟨e, he⟩ => matchesWord_of_decode_error he⟩, fun i => agentOfOpcode_of_decode⟩
  rintro ⟨i, hd, hi⟩
  obtain ⟨q, hq, hqi, hm⟩ := row_of_decode hd
  rwa [eq_of_mnemonic_eq r hr q hq (hi.symm.trans hqi.symm)]

/-- Settles O4: by running the decoder and the encoder. -/
theorem workedEncodings : Obligations.WorkedEncodings := by
  unfold Obligations.WorkedEncodings
  decide

end Sys2Proof

namespace Sys2Proof.Machine

variable {s : State} {w : OpWord} {ws : List OpWord}

/-! ### The step -/

theorem step_of_decode {i : Instr} (h : s.trace = w :: ws) (hd : decode (.word w) = .ok i) :
    step s = exec i (s.setTrace ws) := by
  simp [step, fetch_cons h, hd]

theorem step_of_decode_error {e : DecodeError} (h : s.trace = w :: ws) (hd : decode (.word w) = .error e) :
    step s = .refused .badEncoding := by
  simp [step, fetch_cons h, hd]

theorem step_of_trace_nil (h : s.trace = []) : step s = .next s := by
  simp [step, fetch_nil h]

/-- Settles O5: the two branches of the step. -/
theorem stepRunsDecodedInstruction : Obligations.StepRunsDecodedInstruction := fun _ =>
  ⟨fun _ _ _ => step_of_decode, step_of_trace_nil⟩

/-- Settles O6: the decoder rejects exactly the words that no row selects. -/
theorem invalidWordIsRefused : Obligations.InvalidWordIsRefused := by
  intro s w ws h
  refine ⟨fun hnone => ?_, fun ⟨r, hr, hm⟩ => ?_⟩
  · obtain ⟨e, he⟩ := decode_error_of_no_row hnone
    exact step_of_decode_error h he
  · obtain ⟨i, hd, -⟩ := decode_of_matchesWord hr hm
    exact ⟨i, hd⟩

/-! ### `TX_STEP` -/

/-- In an initialised block `TX_STEP` is the micro-operation whose code is in `tx_phase`. -/
theorem exec_txStep_of_decode_phase {m : Instr} (hi : s.inited = true)
    (hd : decode (.phase s.txPhase.bits) = .ok m) : exec .txStep s = exec m s := by
  change execTxStep s = _
  rw [execTxStep, whenInited_admitted hi]
  cases hp : s.txPhase <;> rw [hp] at hd <;> cases hd <;> rfl

theorem exec_txStep_idle (hi : s.inited = true) (hp : s.txPhase = .idle) :
    exec .txStep s = .refused .noTransmission := by
  change execTxStep s = _
  simp [execTxStep, whenInited_admitted hi, hp]

theorem exec_txStep_early (hi : s.inited = false) : exec .txStep s = .refused .notInitialised := by
  change execTxStep s = _
  simp [execTxStep, whenInited, hi]

/-- Settles O20: in an initialised block the phase's bits decode to the micro-operation of the phase's arm. -/
theorem txStepRunsSelectedMicroOp : Obligations.TxStepRunsSelectedMicroOp := by
  refine ⟨fun _ _ => isMicroOp_of_decode_word, fun _ _ => exec_txStep_of_decode_phase,
    fun _ => exec_txStep_idle, fun _ => exec_txStep_early, ?_⟩
  refine ⟨rfl, rfl, rfl, rfl, rfl, rfl, rfl, rfl, rfl, fun p => ?_, rfl⟩
  cases p <;> decide

end Sys2Proof.Machine
end

section
/-!
PROOF. A transmission run to completion with no interrupt, after the buffer is filled (30_encoding.md R98).
-/

namespace Sys2Proof.Machine

variable {s t : State} {is : List Instr}

/-! ### The operations of `RUN_TX` -/

theorem exec_startTx (hi : s.inited = true) (hp : s.txPhase = .idle) (he : s.txe = true) :
    exec .startTx s = .next (s.setTxPhase .pinGpio) := by
  change execStartTx s = _
  simp [execStartTx, foregroundOp_admitted hi hp, he]

theorem exec_txStep_pinGpio (hi : s.inited = true) (hp : s.txPhase = .pinGpio) :
    exec .txStep s = .next ((s.switchTxPin .gpio).setTxPhase .idleHigh) :=
  exec_txStep_of_decode_phase (m := .txsPinGpio) hi (by rw [hp]; rfl)

theorem exec_txStep_pinAf (hi : s.inited = true) (hp : s.txPhase = .pinAf) :
    exec .txStep s = .next (((s.switchTxPin .af).setTxIndex 0).setTxPhase .send) :=
  exec_txStep_of_decode_phase (m := .txsPinAf) hi (by rw [hp]; rfl)

/-- In the phase of a pulse `TX_STEP` is a turn of that pulse. -/
theorem exec_txStep_pulse {r : PulseRow} (hr : r ∈ pulseRows s.params) (hi : s.inited = true)
    (hp : s.txPhase = r.phase) : exec .txStep s = .next (pulse r.length r.level r.succ s) := by
  simp only [pulseRows, List.mem_cons, List.not_mem_nil, or_false] at hr
  rcases hr with rfl | rfl | rfl
  · exact exec_txStep_of_decode_phase (m := .txsIdleHigh) hi (by rw [hp]; rfl)
  · exact exec_txStep_of_decode_phase (m := .txsBreakLow) hi (by rw [hp]; rfl)
  · exact exec_txStep_of_decode_phase (m := .txsMabHigh) hi (by rw [hp]; rfl)

theorem exec_txStep_send (hi : s.inited = true) (hp : s.txPhase = .send) (he : s.txe = true)
    (hx : s.txIndex < s.params.txCapacity) : exec .txStep s = .next (sendByte s) := by
  rw [exec_txStep_of_decode_phase (m := .txsSend) hi (by rw [hp]; rfl)]
  change execTxsSend s = _
  rw [execTxsSend, if_neg (by simp [he]), withIndex_inside hx]

theorem exec_envTxDrain (hi : s.inited = true) (he : s.txe = false) :
    exec .envTxDrain s = .next (s.log (.frame s.tdr)).setTxe := by
  change execEnvTxDrain s = _
  simp [execEnvTxDrain, whenInited_admitted hi, he]

/-! ### One complete pulse -/

theorem pulse_length_lt {q : Params} {r : PulseRow} (hl : q.Legal) (hr : r ∈ pulseRows q) :
    r.length < modulus q := by
  obtain ⟨-, -, -, -, -, -, -, -, -, -, hidle, hbreak, hmab⟩ := hl
  have hpow : 2 ^ (q.cycWidth - 1) ≤ modulus q := Nat.pow_le_pow_right (by decide) (by omega)
  simp only [pulseRows, List.mem_cons, List.not_mem_nil, or_false] at hr
  rcases hr with rfl | rfl | rfl
  · exact hidle.trans_le hpow
  · exact hbreak.trans_le hpow
  · exact hmab.trans_le hpow

theorem pulse_begins {n : Nat} {l : Bool} {succ : TxPhase} (ha : s.waitArmed = false) :
    pulse n l succ s = s.armWait.driveTx l := by
  simpa [ha] using pulse_cases n l succ s

theorem pulse_ends {n : Nat} {l : Bool} {succ : TxPhase} (ha : s.waitArmed = true) (hn : n ≤ s.elapsed) :
    pulse n l succ s = s.disarmWait.setTxPhase succ := by
  simpa [ha, hn.not_gt, hn] using pulse_cases n l succ s

/-- A pulse from its first turn to its last, with one tick of its whole length between them. -/
def State.afterPulse (s : State) (r : PulseRow) : State :=
  ((s.armWait.driveTx r.level).advance r.length).disarmWait.setTxPhase r.succ

/-- A wait with one tick of its whole length ends at once, for it is shorter than the counter's round. -/
theorem execAll_waitOp {r : PulseRow} (hr : r ∈ pulseRows s.params) (hl : s.params.Legal)
    (hc : s.cyc < modulus s.params) (hi : s.inited = true) (hp : s.txPhase = r.phase)
    (ha : s.waitArmed = false) : execAll (waitOp r.length) s = .next (s.afterPulse r) := by
  have hbegin : exec .txStep s = .next (s.armWait.driveTx r.level) := by
    rw [exec_txStep_pulse hr hi hp, pulse_begins ha]
  have htick : exec (.envTick r.length) (s.armWait.driveTx r.level) =
      .next ((s.armWait.driveTx r.level).advance r.length) := rfl
  have helapsed : ((s.armWait.driveTx r.level).advance r.length).elapsed = r.length := by
    have hzero : (s.armWait.driveTx r.level).elapsed = 0 := elapsed_armWait s hc
    rw [elapsed_advance, hzero, Nat.zero_add]
    exact Nat.mod_eq_of_lt (pulse_length_lt hl hr)
  have hend : exec .txStep ((s.armWait.driveTx r.level).advance r.length) = .next (s.afterPulse r) := by
    rw [exec_txStep_pulse (s := (s.armWait.driveTx r.level).advance r.length) hr hi hp,
      pulse_ends rfl helapsed.ge, State.afterPulse]
  rw [waitOp, execAll_cons hbegin, execAll_cons htick, execAll_cons hend, execAll_nil]

/-! ### The phases before the first byte -/

/-- `t` is where a transmission enters the phase `p`, `n` cycles after `s`, with `es` logged since and with
nothing else of `s` touched that the transmission reads. -/
structure PhaseStart (s : State) (p : TxPhase) (n : Nat) (es : List LogEntry) (t : State) : Prop where
  inited : t.inited = true
  phase : t.txPhase = p
  unarmed : t.waitArmed = false
  counter : t.cyc < modulus t.params
  drained : t.txe = true
  params : t.params = s.params
  buffer : t.txBuffer = s.txBuffer
  now : t.now = s.now + n
  log : t.wireLog = s.wireLog ++ es

variable {p : TxPhase} {n : Nat} {es : List LogEntry}

theorem phaseStart_startTx (h : BlockInv s) (hi : s.inited = true) (hp : s.txPhase = .idle)
    (he : s.txe = true) : PhaseStart s .pinGpio 0 [] (s.setTxPhase .pinGpio) := by
  obtain ⟨-, hc, -, -, ⟨-, -, -, harmed, -⟩, -⟩ := h.parts hi
  exact ⟨hi, rfl, by simpa [hp, isPulsePhase] using harmed, hc, he, rfl, rfl, rfl, by simp⟩

theorem PhaseStart.pinTaken (h : PhaseStart s .pinGpio n es t) :
    PhaseStart s .idleHigh n (es ++ [⟨s.now + n, .mode .gpio⟩])
      ((t.switchTxPin .gpio).setTxPhase .idleHigh) :=
  ⟨h.inited, rfl, h.unarmed, h.counter, h.drained, h.params, h.buffer, h.now, by simp [h.now, h.log]⟩

/-- A complete wait takes the transmission from a pulse's phase to the next. -/
theorem PhaseStart.afterWait {r : PulseRow} (h : PhaseStart s r.phase n es t) (hl : s.params.Legal)
    (hr : r ∈ pulseRows s.params) :
    ∃ u, execAll (waitOp r.length) t = .next u ∧
      PhaseStart s r.succ (n + r.length) (es ++ [⟨s.now + n, .level r.level⟩]) u := by
  refine ⟨t.afterPulse r, ?_, ?_⟩
  · exact execAll_waitOp (h.params ▸ hr) (h.params ▸ hl) h.counter h.inited h.phase h.unarmed
  · exact {
      inited := by simpa [State.afterPulse] using h.inited
      phase := by simp [State.afterPulse]
      unarmed := by simp [State.afterPulse]
      counter := by simpa [State.afterPulse] using Nat.mod_lt _ (modulus_pos _)
      drained := by simpa [State.afterPulse] using h.drained
      params := by simpa [State.afterPulse] using h.params
      buffer := by simpa [State.afterPulse] using h.buffer
      now := by simp [State.afterPulse, h.now, Nat.add_assoc]
      log := by simp [State.afterPulse, h.now, h.log] }

theorem PhaseStart.pinGiven (h : PhaseStart s .pinAf n es t) :
    PhaseStart s .send n (es ++ [⟨s.now + n, .mode .af⟩])
      (((t.switchTxPin .af).setTxIndex 0).setTxPhase .send) :=
  ⟨h.inited, rfl, h.unarmed, h.counter, h.drained, h.params, h.buffer, h.now, by simp [h.now, h.log]⟩

/-! ### The bytes -/

@[simp] theorem sendByte_tdr (s : State) : (sendByte s).tdr = s.txBuffer.read s.txIndex := by
  rcases sendByte_cases s with ⟨-, e⟩ | ⟨-, e⟩ <;> rw [e] <;> rfl

@[simp] theorem sendByte_txe (s : State) : (sendByte s).txe = false := by
  rcases sendByte_cases s with ⟨-, e⟩ | ⟨-, e⟩ <;> rw [e] <;> rfl

/-- A byte loaded and drained. -/
def State.afterByte (s : State) : State :=
  ((sendByte s).log (.frame (s.txBuffer.read s.txIndex))).setTxe

theorem execAll_byte (hi : s.inited = true) (hp : s.txPhase = .send) (he : s.txe = true)
    (hx : s.txIndex < s.params.txCapacity) :
    execAll (.txStep :: .envTxDrain :: is) s = execAll is s.afterByte := by
  have hi' : (sendByte s).inited = true := by rw [sendByte_frame]; exact hi
  rw [execAll_cons (exec_txStep_send hi hp he hx), execAll_cons (exec_envTxDrain hi' (sendByte_txe s)),
    sendByte_tdr, State.afterByte]

/-- The bytes from `tx_index` to the last go on the wire. -/
theorem execAll_sendAndDrain (n : Nat) (hi : s.inited = true) (hp : s.txPhase = .send) (he : s.txe = true)
    (hx : s.txIndex + (n + 1) = s.params.txCapacity) :
    ∃ t, execAll (sendAndDrain (n + 1)) s = .next t ∧ t.txPhase = .idle ∧ t.txe = true ∧ t.now = s.now ∧
      t.txBuffer = s.txBuffer ∧
      t.wireLog = s.wireLog ++
        (List.range' s.txIndex (n + 1)).map (fun j => ⟨s.now, .frame (s.txBuffer.read j)⟩) := by
  induction n generalizing s with
  | zero =>
    refine ⟨s.afterByte, execAll_byte hi hp he (by omega), ?_⟩
    rcases sendByte_cases s with ⟨hn, -⟩ | ⟨-, e⟩
    · omega
    · simp [State.afterByte, e]
  | succ n ih =>
    have e : sendByte s = (s.loadTdr (s.txBuffer.read s.txIndex)).setTxIndex (s.txIndex + 1) := by
      rcases sendByte_cases s with ⟨-, e⟩ | ⟨hn, -⟩
      · exact e
      · omega
    obtain ⟨t, ht, hphase, hempty, hnow, hbuf, hlog⟩ := @ih s.afterByte (by simp [State.afterByte, e, hi])
      (by simp [State.afterByte, e, hp]) rfl (by simp [State.afterByte, e]; omega)
    refine ⟨t, ?_, hphase, hempty, ?_, ?_, ?_⟩
    · rw [sendAndDrain, execAll_byte hi hp he (by omega), ht]
    · simpa [State.afterByte, e] using hnow
    · simpa [State.afterByte, e] using hbuf
    · simpa [State.afterByte, e, List.range'_succ] using hlog

/-! ### `RUN_TX` -/

/-- `RUN_TX` up to its first byte. -/
theorem execAll_runTx_eq_sendAndDrain (h : BlockInv s) (hi : s.inited = true) (hp : s.txPhase = .idle)
    (he : s.txe = true) :
    ∃ t, execAll (runTx s.params) s = execAll (sendAndDrain s.params.txCapacity) t ∧ t.txIndex = 0 ∧
      PhaseStart s .send (s.params.tIdle + s.params.tBreak + s.params.tMab)
        [⟨s.now, .mode .gpio⟩, ⟨s.now, .level true⟩, ⟨s.now + s.params.tIdle, .level false⟩,
         ⟨s.now + (s.params.tIdle + s.params.tBreak), .level true⟩,
         ⟨s.now + (s.params.tIdle + s.params.tBreak + s.params.tMab), .mode .af⟩] t := by
  have hl := h.1
  have h₀ := phaseStart_startTx h hi hp he
  have h₁ := h₀.pinTaken
  obtain ⟨t₂, hidle, h₂⟩ := h₁.afterWait
    (r := ⟨.txsIdleHigh, .idleHigh, s.params.tIdle, true, .breakLow⟩)
    hl (by simp [pulseRows])
  obtain ⟨t₃, hbreak, h₃⟩ := h₂.afterWait
    (r := ⟨.txsBreakLow, .breakLow, s.params.tBreak, false, .mabHigh⟩)
    hl (by simp [pulseRows])
  obtain ⟨t₄, hmab, h₄⟩ := h₃.afterWait
    (r := ⟨.txsMabHigh, .mabHigh, s.params.tMab, true, .pinAf⟩)
    hl (by simp [pulseRows])
  refine ⟨_, ?_, rfl, by simpa using h₄.pinGiven⟩
  simp only [runTx, List.append_assoc, List.cons_append, List.nil_append]
  rw [execAll_cons (exec_startTx hi hp he), execAll_cons (exec_txStep_pinGpio h₀.inited h₀.phase),
    execAll_append hidle, execAll_append hbreak, execAll_append hmab,
    execAll_cons (exec_txStep_pinAf h₄.inited h₄.phase)]

/-- Settles O53: the phases one after the other, then the bytes of the whole buffer. -/
theorem runTxWireLog : Obligations.RunTxWireLog := by
  intro s h hi hp he onAir
  obtain ⟨u, hrun, hx, hu⟩ := execAll_runTx_eq_sendAndDrain h hi hp he
  have honAir : u.now = onAir := by rw [hu.now]; simp only [onAir]; omega
  obtain ⟨n, hn⟩ : ∃ n, s.params.txCapacity = n + 1 := Nat.exists_eq_add_of_le' (one_le_txCapacity h.1)
  obtain ⟨t, ht, hphase, hempty, hnow, hbuf, hlog⟩ :=
    execAll_sendAndDrain n hu.inited hu.phase hu.drained (by rw [hx, hu.params, hn, Nat.zero_add])
  refine ⟨t, ?_, hphase, hempty, hnow.trans honAir, hbuf.trans hu.buffer, ?_⟩
  · rw [hrun, hn, ht]
  · rw [hlog, hu.log, honAir, hu.buffer, hx, ← List.range_eq_range', framesOf, hn, List.map_map]
    simp [onAir, Nat.add_assoc, Function.comp_def]

/-! ### `FILL_TX` -/

theorem exec_getTxBuf (hi : s.inited = true) (hp : s.txPhase = .idle) :
    exec .getTxBuf s = .next (s.setRet (.view .txb)) := by
  change execGetTxBuf s = _
  rw [execGetTxBuf, foregroundOp_admitted hi hp]

theorem exec_txbSt {idx : Nat} {val : Byte} (hi : s.inited = true) (hp : s.txPhase = .idle)
    (hx : idx < s.params.txCapacity) :
    exec (.txbSt idx val) s = .next (s.setTxBuffer (s.txBuffer.write idx val)) := by
  change execTxbSt idx val s = _
  rw [execTxbSt, foregroundOp_admitted hi hp, withIndex_inside hx, State.memWrite_txb]

/-- Stores at rising indices change only `tx_buffer`; the bytes are read back and those below stay. -/
theorem execAll_storesFrom (k : Nat) (bytes : List Byte) (h : BlockInv s) (hi : s.inited = true)
    (hp : s.txPhase = .idle) (hlen : k + bytes.length ≤ s.params.txCapacity) :
    ∃ m, execAll (storesFrom k bytes) s = .next (s.setTxBuffer m) ∧ BlockInv (s.setTxBuffer m) ∧
      (∀ j < k, m.read j = s.txBuffer.read j) ∧
      ∀ j (hj : j < bytes.length), m.read (k + j) = bytes[j] := by
  induction bytes generalizing s k with
  | nil => exact ⟨s.txBuffer, rfl, h, fun _ _ => rfl, nofun⟩
  | cons b bytes ih =>
    rw [List.length_cons] at hlen
    have hx : k < s.params.txCapacity := by omega
    obtain ⟨m, hm, hinv, hbelow, hread⟩ := ih (s := s.setTxBuffer (s.txBuffer.write k b)) (k + 1)
      (blockInv_setTxBuffer_write b hx h) hi hp (by simp; omega)
    refine ⟨m, ?_, hinv, fun j hj => ?_, fun j hj => ?_⟩
    · rw [storesFrom, execAll_cons (exec_txbSt hi hp hx), hm]
      rfl
    · rw [hbelow j (by omega)]
      exact Memory.read_write_other _ _ hj.ne
    · cases j with
      | zero =>
        obtain ⟨-, -, ⟨-, -, hwf, -⟩, -⟩ := h
        rw [Nat.add_zero, hbelow k (by omega)]
        exact Memory.read_write_same k b hwf
      | succ j =>
        rw [← Nat.add_assoc, Nat.add_right_comm, hread j (by simpa using hj)]
        rfl

/-- A buffer's frames are those of the bytes it holds. -/
theorem framesOf_eq_map {bytes : List Byte} {f : Nat → Byte}
    (h : ∀ j (hj : j < bytes.length), f j = bytes[j]) :
    framesOf f bytes.length = bytes.map WireEvent.frame := by
  apply List.ext_getElem
  · simp [framesOf]
  · intro j hj hj'
    simp [framesOf, h j (by simpa using hj')]

/-- Settles O54: the stores leave the bytes in `tx_buffer` and the log as it was, so the frames that `RUN_TX`
logs are theirs. -/
theorem fillThenTransmitRoundTrip : Obligations.FillThenTransmitRoundTrip := by
  intro s bytes h hi hp he hlen
  obtain ⟨m, hm, hinv, -, hread⟩ :=
    execAll_storesFrom (s := s.setRet (.view .txb)) 0 bytes h hi hp (by simp [hlen])
  obtain ⟨t, ht, -, -, -, -, hlog⟩ := runTxWireLog _ hinv hi hp he
  refine ⟨t, ?_, ?_⟩
  · rw [fillTx, List.cons_append, execAll_cons (exec_getTxBuf hi hp), execAll_append hm]
    exact ht
  · have hframes := framesOf_eq_map (f := ((s.setRet (.view .txb)).setTxBuffer m).memRead .txb)
      (by simpa using hread)
    simp [hlog, preamble, ← hframes, hlen, Function.comp_def]

end Sys2Proof.Machine
end

section
/-!
PROOF. The operations of the foreground (40_foreground_api.md): who is admitted, and what an admitted
operation does.
-/

namespace Sys2Proof.Machine

variable {i : Instr} {s : State} {k : Result}

/-! ### The checks an operation can fail -/

theorem whenInited_early (hi : s.inited = false) : whenInited s k = .refused .notInitialised := by
  simp [whenInited, hi]

theorem foregroundOp_early (hi : s.inited = false) : foregroundOp s k = .refused .notInitialised :=
  whenInited_early hi

theorem foregroundOp_busy (hi : s.inited = true) (hp : s.txPhase ≠ .idle) :
    foregroundOp s k = .refused .foregroundBusy := by
  simp [foregroundOp, whenInited_admitted hi, hp]

theorem withIndex_outside {b : Buffer} {idx : Nat} (h : s.capacity b ≤ idx) :
    withIndex s b idx k = .refused .indexOutOfRange := by
  simp [withIndex, h]

/-- Each foreground operation but `INIT` and `TX_STEP` is behind the two checks of R132. -/
theorem exec_eq_foregroundOp (hf : i.agent = .foreground) (hm : i.isMicroOp = false) (hinit : i ≠ .init)
    (hstep : i ≠ .txStep) (s : State) : ∃ k, exec i s = foregroundOp s k := by
  cases i with
  | init => exact absurd rfl hinit
  | txStep => exact absurd rfl hstep
  | pktAvail | getPkt | getRxLen | freePkt | getTxBuf | startTx | rxbLd | txbLd | txbSt => exact ⟨_, rfl⟩
  | rxIrqBreak | rxIrqData | rxIrqNone | envTick | envTxDrain | envIrqEn => cases hf
  | txsPinGpio | txsIdleHigh | txsBreakLow | txsMabHigh | txsPinAf | txsSend => cases hm

theorem refusedUnlessAdmitted (i : Instr) (s : State) (hf : i.agent = .foreground) (hm : i.isMicroOp = false)
    (hinit : i ≠ .init) (hstep : i ≠ .txStep) : RefusedUnlessAdmitted i s := by
  obtain ⟨k, hk⟩ := exec_eq_foregroundOp hf hm hinit hstep s
  rw [RefusedUnlessAdmitted, hk]
  exact ⟨foregroundOp_early, foregroundOp_busy⟩

theorem exec_envTxDrain_early (hi : s.inited = false) : exec .envTxDrain s = .refused .notInitialised :=
  whenInited_early hi

/-- Settles O43: `TX_STEP` and `ENV_TX_DRAIN` check `inited` themselves, every other word by R132. -/
theorem notInitialisedIsRefused : Obligations.NotInitialisedIsRefused := by
  rintro i s hi hm hinit (hf | rfl)
  · by_cases hstep : i = .txStep
    · exact hstep ▸ exec_txStep_early hi
    · exact (refusedUnlessAdmitted _ s hf hm hinit hstep).1 hi
  · exact exec_envTxDrain_early hi

/-! ### While a transmission is in progress -/

theorem exec_txStep_send_waits (hi : s.inited = true) (hp : s.txPhase = .send) (he : s.txe = false) :
    exec .txStep s = .next s := by
  rw [exec_txStep_of_decode_phase (m := .txsSend) hi (by rw [hp]; rfl)]
  exact if_pos he

/-- `TX_STEP` has a step in every phase of a transmission; in `SEND` the invariant bounds the index. -/
theorem exec_txStep_runs (h : BlockInv s) (hi : s.inited = true) (hp : s.txPhase ≠ .idle) :
    ∃ t, exec .txStep s = .next t := by
  obtain ⟨-, -, -, -, ⟨-, hindex, -⟩, -⟩ := h.parts hi
  cases hphase : s.txPhase with
  | idle => exact absurd hphase hp
  | pinGpio => exact ⟨_, exec_txStep_pinGpio hi hphase⟩
  | idleHigh => exact ⟨_, exec_txStep_pulse (.head _) hi hphase⟩
  | breakLow => exact ⟨_, exec_txStep_pulse (.tail _ (.head _)) hi hphase⟩
  | mabHigh => exact ⟨_, exec_txStep_pulse (.tail _ (.tail _ (.head _))) hi hphase⟩
  | pinAf => exact ⟨_, exec_txStep_pinAf hi hphase⟩
  | send =>
    cases he : s.txe with
    | false => exact ⟨_, exec_txStep_send_waits hi hphase he⟩
    | true => exact ⟨_, exec_txStep_send hi hphase he (hindex hphase)⟩

/-- On an initialised block a receive event is lost or delivered, never refused. -/
theorem takeInterrupt_runs (body : State → State) (hi : s.inited = true) :
    ∃ t, takeInterrupt body s = .next t := by
  cases he : s.irqEnabled with
  | false => exact ⟨_, takeInterrupt_lost he⟩
  | true => exact ⟨_, takeInterrupt_delivered he hi⟩

theorem exec_rxIrq_runs (fe rxne : Bool) (data : Byte) (hi : s.inited = true) :
    ∃ t, exec (.rxIrq fe rxne data) s = .next t :=
  match fe, rxne with
  | true, _ => takeInterrupt_runs restartUniverse hi
  | false, true => takeInterrupt_runs (storeSlot data) hi
  | false, false => takeInterrupt_runs (fun t => t) hi

/-- Settles O44: the check of `tx_phase` refuses the others, the invariant admits `TX_STEP`, and an event's
admission does not read the phase. -/
theorem busyForegroundRunsOnlyTxStep : Obligations.BusyForegroundRunsOnlyTxStep := fun s hi hp =>
  ⟨fun _ hf hm hstep hinit => (refusedUnlessAdmitted _ s hf hm hinit hstep).2 hi hp, exec_init_again hi,
    fun h => exec_txStep_runs h hi hp, fun fe rxne data => exec_rxIrq_runs fe rxne data hi⟩

/-! ### The receive side -/

theorem exec_pktAvail (hi : s.inited = true) (hp : s.txPhase = .idle) :
    exec .pktAvail s = .next (s.setRet (.bool s.rxReady)) :=
  foregroundOp_admitted hi hp

/-- Settles O10: the checks, then the flag is returned. -/
theorem pktAvailReturnsRxReady : Obligations.PktAvailReturnsRxReady := fun s =>
  ⟨refusedUnlessAdmitted .pktAvail s rfl rfl nofun nofun, exec_pktAvail, rfl⟩

theorem exec_getPkt (hi : s.inited = true) (hp : s.txPhase = .idle) :
    exec .getPkt s = .next (s.setRet
      (if s.rxReady then .packet .rxb s.params.rxCapacity else .packet .null 0)) :=
  foregroundOp_admitted hi hp

/-- Settles O11: `rx_ready` picks what is returned. -/
theorem getPktReturnsViewOrNull : Obligations.GetPktReturnsViewOrNull := by
  refine fun s => ⟨refusedUnlessAdmitted .getPkt s rfl rfl nofun nofun,
    fun hi hp => ⟨fun hr => ?_, fun hr => ?_⟩, rfl⟩
  · rw [exec_getPkt hi hp, if_pos hr]
    rfl
  · rw [exec_getPkt hi hp, if_neg (by simp [hr])]
    rfl

theorem exec_getRxLen (hi : s.inited = true) (hp : s.txPhase = .idle) :
    exec .getRxLen s = .next (s.setRet (.length s.params.rxCapacity)) :=
  foregroundOp_admitted hi hp

/-- Settles O12: the checks, then the parameter is returned. -/
theorem getRxLenReturnsCapacity : Obligations.GetRxLenReturnsCapacity := fun s =>
  ⟨refusedUnlessAdmitted .getRxLen s rfl rfl nofun nofun, exec_getRxLen, rfl⟩

theorem exec_rxbLd_notOwned {idx : Nat} (hi : s.inited = true) (hp : s.txPhase = .idle)
    (hr : s.rxReady = false) : exec (.rxbLd idx) s = .refused .rxBufferNotOwned :=
  (foregroundOp_admitted hi hp).trans (if_pos hr)

theorem exec_rxbLd_owned {idx : Nat} (hi : s.inited = true) (hp : s.txPhase = .idle) (hr : s.rxReady = true) :
    exec (.rxbLd idx) s = withIndex s .rxb idx (.next (s.setRet (.byte (s.memRead .rxb idx)))) :=
  (foregroundOp_admitted hi hp).trans (if_neg (by simp [hr]))

/-- Settles O13: the checks, then ownership, then the index. -/
theorem rxbLdReadsOwnedBuffer : Obligations.RxbLdReadsOwnedBuffer := fun s idx =>
  ⟨refusedUnlessAdmitted (.rxbLd idx) s rfl rfl nofun nofun,
    fun hi hp => ⟨exec_rxbLd_notOwned hi hp,
      fun hr hx => (exec_rxbLd_owned hi hp hr).trans (withIndex_outside hx),
      fun hr hx => (exec_rxbLd_owned hi hp hr).trans (withIndex_inside hx)⟩,
    rfl⟩

theorem exec_freePkt (hi : s.inited = true) (hp : s.txPhase = .idle) :
    exec .freePkt s = .next (s.setRxReady false) :=
  foregroundOp_admitted hi hp

/-- Settles O14: the checks, then the flag is cleared. -/
theorem freePktClearsRxReady : Obligations.FreePktClearsRxReady := fun s =>
  ⟨refusedUnlessAdmitted .freePkt s rfl rfl nofun nofun, exec_freePkt, rfl⟩

/-- Settles O19: `FREE_PKT` leaves the block idle with the flag cleared, and `PKT_AVAIL` returns the flag. -/
theorem freeThenAvailableIsFalse : Obligations.FreeThenAvailableIsFalse := by
  intro s hi hp
  rw [execAll_cons (exec_freePkt hi hp), execAll_cons (exec_pktAvail (s := s.setRxReady false) hi hp)]
  rfl

/-! ### The transmit side -/

/-- Settles O15: the checks, then the view is returned. -/
theorem getTxBufReturnsView : Obligations.GetTxBufReturnsView := fun s =>
  ⟨refusedUnlessAdmitted .getTxBuf s rfl rfl nofun nofun, exec_getTxBuf, rfl⟩

theorem exec_txbLd {idx : Nat} (hi : s.inited = true) (hp : s.txPhase = .idle) :
    exec (.txbLd idx) s = withIndex s .txb idx (.next (s.setRet (.byte (s.memRead .txb idx)))) :=
  foregroundOp_admitted hi hp

/-- Settles O16: the checks, then the index. -/
theorem txbLdReadsBuffer : Obligations.TxbLdReadsBuffer := fun s idx =>
  ⟨refusedUnlessAdmitted (.txbLd idx) s rfl rfl nofun nofun,
    fun hi hp => ⟨fun hx => (exec_txbLd hi hp).trans (withIndex_outside hx),
      fun hx => (exec_txbLd hi hp).trans (withIndex_inside hx)⟩,
    rfl⟩

theorem exec_txbSt_outside {idx : Nat} {val : Byte} (hi : s.inited = true) (hp : s.txPhase = .idle)
    (hx : s.params.txCapacity ≤ idx) : exec (.txbSt idx val) s = .refused .indexOutOfRange :=
  (foregroundOp_admitted hi hp).trans (withIndex_outside hx)

/-- Settles O17: the store is one write of the space, which reads back and leaves every other index. -/
theorem txbStWritesOneByte : Obligations.TxbStWritesOneByte := by
  refine fun s idx val => ⟨refusedUnlessAdmitted (.txbSt idx val) s rfl rfl nofun nofun,
    fun hi hp => ⟨exec_txbSt_outside hi hp, fun hx => ⟨_, exec_txbSt hi hp hx, rfl, ?_, ?_⟩⟩, ?_⟩
  · exact Memory.read_write_same idx val
  · exact fun j => Memory.read_write_other s.txBuffer val
  · rw [Nat.add_assoc]
    rfl

theorem exec_startTx_notDrained (hi : s.inited = true) (hp : s.txPhase = .idle) (he : s.txe = false) :
    exec .startTx s = .refused .transmitterNotDrained :=
  (foregroundOp_admitted hi hp).trans (if_pos he)

/-- Settles O18: the checks, then the transmitter; the sequence begins in its first phase. -/
theorem startTxEntersSequence : Obligations.StartTxEntersSequence := fun s =>
  ⟨refusedUnlessAdmitted .startTx s rfl rfl nofun nofun,
    fun hi hp => ⟨exec_startTx_notDrained hi hp, exec_startTx hi hp⟩, rfl⟩

end Sys2Proof.Machine
end

section
/-!
PROOF. The receive state machine (41_receive_state_machine.md): what a delivered event does, the transition
table over the five receive classes, and runs of events.
-/

namespace Sys2Proof.Machine

variable {s : State} {c : RxClass}

/-! ### Admission -/

theorem takeInterrupt_early {body : State → State} (he : s.irqEnabled = true) (hi : s.inited = false) :
    takeInterrupt body s = .refused .notInitialised := by
  simp [takeInterrupt, he, hi]

/-- Every receive event is one handler invocation. -/
theorem exec_rxIrq_eq_takeInterrupt (fe rxne : Bool) (data : Byte) (s : State) :
    ∃ body, exec (.rxIrq fe rxne data) s = takeInterrupt body s :=
  match fe, rxne with
  | true, _ => ⟨restartUniverse, rfl⟩
  | false, true => ⟨storeSlot data, rfl⟩
  | false, false => ⟨fun t => t, rfl⟩

/-- Settles O28: the checks are made before the handler's body is chosen. -/
theorem handlerAdmission : Obligations.HandlerAdmission := by
  intro s fe rxne data
  obtain ⟨body, hbody⟩ := exec_rxIrq_eq_takeInterrupt fe rxne data s
  rw [hbody]
  exact ⟨takeInterrupt_lost, takeInterrupt_early⟩

/-! ### A delivered event -/

section Delivered

variable (he : s.irqEnabled = true) (hi : s.inited = true)

include he hi

theorem exec_rxIrqBreak (rxne : Bool) (data : Byte) :
    exec (.rxIrqBreak rxne data) s = .next (s.setRxPosition 0) :=
  takeInterrupt_delivered he hi

theorem exec_rxIrqData (data : Byte) : exec (.rxIrqData data) s = .next (storeSlot data s) :=
  takeInterrupt_delivered he hi

theorem exec_rxIrqNone (data : Byte) : exec (.rxIrqNone data) s = .next s :=
  takeInterrupt_delivered he hi

end Delivered

/-- `s` with the buffer's contents `m` and `n` bytes received, `rx_ready` telling whether they fill it. -/
def State.received (s : State) (m : Memory) (n : Nat) : State :=
  { s with rxBuffer := m, rxPosition := n, rxReady := decide (n = s.params.rxCapacity) }

/-- A byte is stored while there is room and the interrupt context owns the buffer. -/
theorem storeSlot_stored {data : Byte} (hp : s.rxPosition < s.params.rxCapacity) (hr : s.rxReady = false) :
    storeSlot data s = s.received (s.rxBuffer.write s.rxPosition data) (s.rxPosition + 1) := by
  rcases storeSlot_cases data s with ⟨hroom, -, e⟩ | ⟨hlast, -, e⟩ | ⟨hdrop, -⟩
  · rw [e, State.received, decide_eq_false hroom.ne, ← hr]
    rfl
  · rw [e, State.received, decide_eq_true hlast]
    rfl
  · exact absurd (hdrop.resolve_right (by simp [hr])) hp.not_ge

theorem storeSlot_dropped {data : Byte} (h : s.params.rxCapacity ≤ s.rxPosition ∨ s.rxReady = true) :
    storeSlot data s = s := by
  rcases storeSlot_cases data s with ⟨hroom, hr, -⟩ | ⟨hlast, hr, -⟩ | ⟨-, e⟩
  · exact absurd (h.resolve_right (by simp [hr])) (by omega)
  · exact absurd (h.resolve_right (by simp [hr])) (by omega)
  · exact e

/-- The handler's two guards on a data byte (R155) are those of the slot store (R153). -/
theorem handler_data (data : Byte) (s : State) : handler ⟨false, some data⟩ s = storeSlot data s := by
  by_cases h : s.rxPosition < s.params.rxCapacity ∧ s.rxReady = false
  · rw [storeSlot_stored h.1 h.2]
    exact if_pos h
  · have hdrop := (not_and_or.1 h).imp Nat.le_of_not_lt Bool.eq_true_of_not_eq_false
    rw [storeSlot_dropped hdrop]
    exact if_neg h

theorem exec_rxIrq (fe rxne : Bool) (data : Byte) (he : s.irqEnabled = true) (hi : s.inited = true) :
    exec (.rxIrq fe rxne data) s = .next (handler (Snapshot.sample fe rxne data) s) :=
  match fe, rxne with
  | true, _ => exec_rxIrqBreak he hi ..
  | false, true => (handler_data data s).symm ▸ exec_rxIrqData he hi data
  | false, false => exec_rxIrqNone he hi data

/-- Settles O32: the handler of each of the three rows is the whole handler on the row's flags. -/
theorem handlerIsOneFunction : Obligations.HandlerIsOneFunction := fun _ => exec_rxIrq

/-- The event's word: the opcode, then each flag and the byte at its place (30_encoding.md R91, R92). -/
theorem encode_rxIrq_sum (fe rxne : Bool) (data : Byte) :
    encode (.rxIrq fe rxne data) =
      .word (BitVec.ofNat 32 (0x80000000 + fe.toNat * 0x200 + rxne.toNat * 0x100 + data.toNat)) := by
  rw [encode_rxIrq, packWord, packEvent, ← Nat.add_assoc, ← Nat.add_assoc]
  rfl

/-- Settles O29: the body of the break resets `rx_position`. -/
theorem breakResetsPosition : Obligations.BreakResetsPosition := fun _ rxne data he hi =>
  ⟨exec_rxIrqBreak he hi rxne data, encode_rxIrq_sum true rxne data⟩

/-- Settles O30: the two branches of the slot store; the stored byte is one write of the space. -/
theorem dataByteStoredOrDropped : Obligations.DataByteStoredOrDropped := by
  refine fun s data he hi => ⟨fun hp hr => ?_, fun h => ?_, encode_rxIrq_sum false true data⟩
  · rw [exec_rxIrqData he hi, storeSlot_stored hp hr]
    exact ⟨_, rfl, rfl, Memory.read_write_same s.rxPosition data,
      fun _ => Memory.read_write_other s.rxBuffer data⟩
  · rw [exec_rxIrqData he hi, storeSlot_dropped h]

/-- Settles O31: the body is empty. -/
theorem noFlagsChangesNothing : Obligations.NoFlagsChangesNothing := fun _ data he hi =>
  ⟨exec_rxIrqNone he hi data, encode_rxIrq_sum false false data⟩

/-! ### The transition table -/

/-- What each class of R156 says of `rx_position` and `rx_ready`. -/
def InClass (s : State) : RxClass → Prop
  | .idle => s.rxReady = false ∧ s.rxPosition = 0
  | .filling => s.rxReady = false ∧ 0 < s.rxPosition ∧ s.rxPosition < s.params.rxCapacity
  | .fullUnconsumed => s.rxReady = true ∧ s.rxPosition = s.params.rxCapacity
  | .fullConsumed => s.rxReady = false ∧ s.rxPosition = s.params.rxCapacity
  | .resyncBlocked => s.rxReady = true ∧ s.rxPosition = 0

/-- With a buffer of at least one byte, a full one is not an empty one, so the five classes exclude each
other. -/
theorem rxClass_of_inClass (hc : 0 < s.params.rxCapacity) (h : InClass s c) : rxClass s = some c := by
  cases c with
  | idle | resyncBlocked =>
    obtain ⟨hr, hp⟩ := h
    simp [rxClass, hr, hp]
  | filling =>
    obtain ⟨hr, hpos, hlt⟩ := h
    simp [rxClass, hr, hpos.ne', hlt]
  | fullUnconsumed | fullConsumed =>
    obtain ⟨hr, hp⟩ := h
    simp [rxClass, hr, hp, hc.ne']

theorem exists_inClass (h : RxInv s) : ∃ c, InClass s c := by
  obtain ⟨hle, hready⟩ := h
  cases hr : s.rxReady with
  | true =>
    rcases hready hr with hp | hp
    · exact ⟨.resyncBlocked, hr, hp⟩
    · exact ⟨.fullUnconsumed, hr, hp⟩
  | false =>
    rcases Nat.eq_zero_or_pos s.rxPosition with hp | hp
    · exact ⟨.idle, hr, hp⟩
    · rcases hle.lt_or_eq with hlt | heq
      · exact ⟨.filling, hr, hp, hlt⟩
      · exact ⟨.fullConsumed, hr, heq⟩

theorem inClass_afterBreak (h : InClass s c) : InClass (s.setRxPosition 0) c.afterBreak := by
  cases c <;> exact ⟨h.1, rfl⟩

theorem inClass_afterFree (h : InClass s c) : InClass (s.setRxReady false) c.afterFree := by
  cases c <;> exact ⟨rfl, h.2⟩

/-- A stored byte leads to `FULL_UNCONSUMED` if it is the last one, to `FILLING` otherwise. -/
theorem inClass_stored (data : Byte) (hp : s.rxPosition < s.params.rxCapacity) (hr : s.rxReady = false) :
    InClass (storeSlot data s)
      (if s.rxPosition + 1 = s.params.rxCapacity then .fullUnconsumed else .filling) := by
  rw [storeSlot_stored hp hr]
  split
  case isTrue hlast => exact ⟨decide_eq_true hlast, hlast⟩
  case isFalse hroom => exact ⟨decide_eq_false hroom, Nat.succ_pos _, Nat.lt_of_le_of_ne hp hroom⟩

theorem inClass_afterData (data : Byte) (hc : 0 < s.params.rxCapacity) (h : InClass s c) :
    InClass (storeSlot data s) (c.afterData (decide (s.rxPosition + 1 = s.params.rxCapacity))) := by
  cases c with
  | idle =>
    obtain ⟨hr, hp⟩ := h
    simpa [RxClass.afterData] using inClass_stored data (hp.trans_lt hc) hr
  | filling =>
    obtain ⟨hr, -, hlt⟩ := h
    simpa [RxClass.afterData] using inClass_stored data hlt hr
  | fullConsumed => rwa [storeSlot_dropped (.inl h.2.ge)]
  | fullUnconsumed | resyncBlocked => rwa [storeSlot_dropped (.inr h.1)]

/-- Settles O33: a running state is in a class, and each column of the table is one lemma on classes. -/
theorem receiveTransitionTable : Obligations.ReceiveTransitionTable := by
  intro s h hi
  obtain ⟨⟨hc, -⟩, -, -, hrx, -⟩ := h.parts hi
  obtain ⟨c, h⟩ := exists_inClass hrx
  have hclass := rxClass_of_inClass hc h
  refine ⟨c, hclass, fun he => ⟨fun rxne data => ?_, fun data => ?_, fun data => ?_⟩, fun hp => ?_⟩
  · exact ⟨_, exec_rxIrqBreak he hi rxne data, rxClass_of_inClass hc (inClass_afterBreak h)⟩
  · refine ⟨_, exec_rxIrqData he hi data, rxClass_of_inClass ?_ (inClass_afterData data hc h)⟩
    rwa [storeSlot_frame]
  · exact ⟨s, exec_rxIrqNone he hi data, hclass⟩
  · exact ⟨_, exec_freePkt hi hp, rxClass_of_inClass hc (inClass_afterFree h)⟩

/-! ### Runs of events -/

/-- While a packet is unconsumed the handler moves `rx_position` at most. -/
theorem handler_unconsumed (snap : Snapshot) (hr : s.rxReady = true) :
    ∃ p, handler snap s = s.setRxPosition p :=
  match snap with
  | ⟨true, _⟩ => ⟨0, rfl⟩
  | ⟨false, none⟩ => ⟨s.rxPosition, rfl⟩
  | ⟨false, some data⟩ => ⟨s.rxPosition, (handler_data data s).trans (storeSlot_dropped (.inr hr))⟩

/-- Settles O36, by induction on the events: each one moves `rx_position` at most. -/
theorem unconsumedPacketIsStable : Obligations.UnconsumedPacketIsStable := by
  intro events
  induction events with
  | nil => exact fun s _ _ _ => ⟨s.rxPosition, rfl⟩
  | cons e events ih =>
    intro s he hi hr
    obtain ⟨p, hp⟩ := handler_unconsumed (Snapshot.sample e.1 e.2.1 e.2.2) hr
    rw [List.map_cons, execAll_cons (exec_rxIrq _ _ _ he hi), hp]
    exact ih (s.setRxPosition p) he hi hr

/-- Bytes that fit run to a state in which they follow, in arrival order, what the buffer held, and
`rx_ready` is true exactly when the buffer is full, if it was so at the start. -/
theorem execAll_feed_bytes (bytes : List Byte) (he : s.irqEnabled = true) (hi : s.inited = true)
    (hr : s.rxReady = decide (s.rxPosition = s.params.rxCapacity)) (hwf : s.rxBuffer.wf = true)
    (hlen : s.rxPosition + bytes.length ≤ s.params.rxCapacity) :
    ∃ m, execAll (feed (bytes.map .literal)) s =
        .next (s.received m (s.rxPosition + bytes.length)) ∧
      (∀ j < s.rxPosition, m.read j = s.rxBuffer.read j) ∧
      ∀ i b, bytes[i]? = some b → m.read (s.rxPosition + i) = b := by
  induction bytes generalizing s with
  | nil =>
    refine ⟨s.rxBuffer, ?_, fun _ _ => rfl, nofun⟩
    rw [List.length_nil, Nat.add_zero, State.received, ← hr]
    rfl
  | cons b bytes ih =>
    rw [List.length_cons, ← Nat.add_assoc, Nat.add_right_comm] at hlen ⊢
    have hp : s.rxPosition < s.params.rxCapacity := by omega
    have hstore := storeSlot_stored (data := b) hp (hr.trans (decide_eq_false hp.ne))
    obtain ⟨m, hm, hbelow, hread⟩ :=
      ih (s := s.received (s.rxBuffer.write s.rxPosition b) (s.rxPosition + 1)) he hi rfl
        (Memory.wf_write s.rxPosition b hwf) hlen
    refine ⟨m, (execAll_cons (hstore ▸ exec_rxIrqData he hi b)).trans hm, fun j hj => ?_, fun i b' hb => ?_⟩
    · rw [hbelow j (Nat.lt_succ_of_lt hj)]
      exact Memory.read_write_other _ _ hj.ne
    · cases i with
      | zero =>
        cases hb
        exact (hbelow _ (Nat.lt_succ_self _)).trans (Memory.read_write_same _ _ hwf)
      | succ i =>
        rw [← Nat.add_assoc, Nat.add_right_comm]
        exact hread i b' hb

/-- After a break, `n` bytes that fit lie at the indices below `n`, and `rx_ready` is true exactly when they
fill the buffer. -/
theorem execAll_feed_break_bytes (bytes : List Byte) (h : BlockInv s) (he : s.irqEnabled = true)
    (hi : s.inited = true) (hr : s.rxReady = false) (hlen : bytes.length ≤ s.params.rxCapacity) :
    ∃ t, execAll (feed (.breakToken :: bytes.map .literal)) s = .next t ∧
      t.rxReady = decide (bytes.length = s.params.rxCapacity) ∧ t.rxPosition = bytes.length ∧
      ∀ i b, bytes[i]? = some b → t.memRead .rxb i = b := by
  obtain ⟨⟨hc, -⟩, -, ⟨hwf, -⟩, -⟩ := h.parts hi
  have hc : 0 < s.params.rxCapacity := hc
  obtain ⟨m, hm, -, hread⟩ := execAll_feed_bytes (s := s.setRxPosition 0) bytes he hi
    (hr.trans (decide_eq_false hc.ne).symm) hwf (by simpa using hlen)
  simp only [State.setRxPosition_rxPosition, Nat.zero_add] at hm hread
  exact ⟨_, (execAll_cons (exec_rxIrqBreak he hi true 0)).trans hm, rfl, rfl, hread⟩

/-- Settles O37: a whole packet's bytes fill the buffer, and fewer of them do not. -/
theorem capacityBytesCompletePacket : Obligations.CapacityBytesCompletePacket := by
  refine fun s bytes h he hi hr hlen => ⟨?_, fun k hk => ?_⟩
  · obtain ⟨t, ht, hready, hp, hread⟩ := execAll_feed_break_bytes bytes h he hi hr hlen.le
    exact ⟨t, ht, hready.trans (decide_eq_true hlen), hp.trans hlen, hread⟩
  · have hk' : (bytes.take k).length = k := List.length_take_of_le (hlen ▸ hk.le)
    obtain ⟨u, hu, hready, hp, -⟩ := execAll_feed_break_bytes (bytes.take k) h he hi hr (hk'.trans_le hk.le)
    rw [hk'] at hready hp
    exact ⟨u, hu, hready.trans (decide_eq_false hk.ne), hp⟩

end Sys2Proof.Machine
end

section
/-!
PROOF. The transmit sequencer (42_transmit_sequencer.md): what `TX_STEP` does in each phase, the timing of the
pulses on the wire, and the wire result of a transmission.
-/

namespace Sys2Proof.Machine

variable {i : Instr} {s t : State} {r : PulseRow} {l : Bool} {n : Nat} {e : WireEvent}

/-! ### The phases -/

theorem mem_pulseRows {q : Params} : r ∈ pulseRows q ↔
    r = ⟨.txsIdleHigh, .idleHigh, q.tIdle, true, .breakLow⟩ ∨
    r = ⟨.txsBreakLow, .breakLow, q.tBreak, false, .mabHigh⟩ ∨
    r = ⟨.txsMabHigh, .mabHigh, q.tMab, true, .pinAf⟩ := by
  simp [pulseRows]

/-- What is no micro-operation takes a turn of a pulse only in the pulse's phase. -/
theorem Runs.admitted_pulse {q : Params} (h : Runs i r.op r.phase s) (hr : r ∈ pulseRows q)
    (hi : i.isMicroOp = false) : s.inited = true ∧ s.txPhase = r.phase := by
  refine h.admitted hi ?_
  rcases mem_pulseRows.1 hr with rfl | rfl | rfl <;> rfl

theorem BlockInv.txInv (h : BlockInv s) (hi : s.inited = true) : TxInv s := by
  obtain ⟨-, -, -, -, ht, -⟩ := h.parts hi
  exact ht

theorem TxInv.unarmed (h : TxInv s) (hp : isPulsePhase s.txPhase = false) : s.waitArmed = false := by
  obtain ⟨-, -, -, ha, -⟩ := h
  simpa [hp] using ha

theorem TxInv.idle_or_send (h : TxInv s) (he : s.txe = false) : s.txPhase = .idle ∨ s.txPhase = .send := by
  obtain ⟨-, -, -, -, -, hdrained⟩ := h
  exact hdrained he

theorem TxInv.drained_of_gpioPhase (h : TxInv s) (hp : isGpioPhase s.txPhase = true) : s.txe = true := by
  cases he : s.txe with
  | true => rfl
  | false => rcases h.idle_or_send he with hq | hq <;> rw [hq] at hp <;> cases hp

/-! ### `TX_STEP` and its micro-operations (42_transmit_sequencer.md R171 to R176) -/

/-- Settles O21: the micro-operation has no check, and `TX_STEP` runs it in its phase. -/
theorem pinGpioTakesThePin : Obligations.PinGpioTakesThePin := by
  intro s t ht
  have hop : exec .txsPinGpio s = .next t := by rw [ht]; rfl
  exact ⟨hop, fun hi hp => (exec_txStep_of_decode_phase hi (by rw [hp]; rfl)).trans hop⟩

/-- Settles O23: the micro-operation has no check, and `TX_STEP` runs it in its phase. -/
theorem pinAfGivesThePinBack : Obligations.PinAfGivesThePinBack := by
  intro s t ht
  have hop : exec .txsPinAf s = .next t := by rw [ht]; rfl
  exact ⟨hop, fun hi hp => (exec_txStep_of_decode_phase hi (by rw [hp]; rfl)).trans hop⟩

/-- A pulse's micro-operation is a turn of that pulse. -/
theorem exec_pulseOp (hr : r ∈ pulseRows s.params) :
    exec r.op s = .next (pulse r.length r.level r.succ s) := by
  rcases mem_pulseRows.1 hr with rfl | rfl | rfl <;> rfl

theorem pulse_waits {succ : TxPhase} (ha : s.waitArmed = true) (hn : s.elapsed < n) : pulse n l succ s = s := by
  simpa [ha, hn, hn.not_ge] using pulse_cases n l succ s

/-- Settles O22: both operations are a turn of the pulse, and `k` cycles, fewer than the counter's round, are
what the wait reads as elapsed. -/
theorem pulsesDriveAndWait : Obligations.PulsesDriveAndWait := by
  intro s r hr hi hp i hop
  have hexec : exec i s = .next (pulse r.length r.level r.succ s) := by
    rcases hop with rfl | rfl
    · exact exec_pulseOp hr
    · exact exec_txStep_pulse hr hi hp
  rw [hexec]
  refine ⟨fun ha => ?_, fun ha k hk hc => ?_⟩
  · rw [pulse_begins ha]
    rfl
  · have helapsed : s.elapsed = k := (elapsed_of_cyc hc).trans (Nat.mod_eq_of_lt hk)
    refine ⟨fun hlt => ?_, fun hle => ?_⟩
    · rw [pulse_waits ha (helapsed.trans_lt hlt)]
    · rw [pulse_ends ha (hle.trans helapsed.ge)]
      rfl

/-- A byte load in its phase, whole. -/
theorem sendByte_of_send (hp : s.txPhase = .send) :
    sendByte s =
      { s with
        tdr := s.memRead .txb s.txIndex
        txe := false
        txIndex := s.txIndex + 1
        txPhase := if s.txIndex + 1 = s.params.txCapacity then .idle else .send } := by
  rcases sendByte_cases s with ⟨hn, e⟩ | ⟨hn, e⟩
  · rw [e, if_neg hn, ← hp]
    rfl
  · rw [e, if_pos hn]
    rfl

/-- Settles O24: both operations are `TXS_SEND`, which checks `txe` and then the index. -/
theorem sendLoadsOneByte : Obligations.SendLoadsOneByte := by
  intro s hi hp i hop
  have hexec : exec i s = execTxsSend s := by
    rcases hop with rfl | rfl
    · rfl
    · exact exec_txStep_of_decode_phase (m := .txsSend) hi (by rw [hp]; rfl)
  rw [hexec, execTxsSend]
  refine ⟨fun he => if_pos he, fun he hx => ?_, fun he hx => ?_⟩
  · rw [if_neg (by simp [he]), withIndex_inside hx, sendByte_of_send hp]
  · rw [if_neg (by simp [he]), withIndex_outside hx]

/-! ### The timing of the pulses (42_transmit_sequencer.md R179, R180) -/

/-- Outside the `GPIO` phases no pulse is on the wire. -/
theorem phaseOnWire_iff_noPulse (hp : isGpioPhase s.txPhase = false) : phaseOnWire s ↔ noPulse s := by
  unfold phaseOnWire
  cases hq : s.txPhase with
  | idle | pinGpio | send => rfl
  | idleHigh | breakLow | mabHigh | pinAf => rw [hq] at hp; cases hp

theorem phaseOnWire_armed (hr : r ∈ pulseRows s.params) (hp : s.txPhase = r.phase) (ha : s.waitArmed = true) :
    phaseOnWire s ↔ pulseRunning s r.level := by
  rcases mem_pulseRows.1 hr with rfl | rfl | rfl <;> simp only [phaseOnWire, hp, ha]

theorem phaseOnWire_succ (hr : r ∈ pulseRows s.params) (hp : s.txPhase = r.succ) (ha : s.waitArmed = false) :
    phaseOnWire s ↔ pulseOver s r.level r.length := by
  rcases mem_pulseRows.1 hr with rfl | rfl | rfl <;> simp only [phaseOnWire, hp, ha]

/-- After a pulse that is over an entry may follow that asks for no more than the pulse's length. -/
theorem gapOk_of_pulseOver (h : pulseOver s l n)
    (hgap : ∀ k, gapOk s.params ⟨k, .level l⟩ ⟨s.now, e⟩ = decide (k + n ≤ s.now)) :
    ∀ a, s.wireLog.getLast? = some a → gapOk s.params a ⟨s.now, e⟩ = true := by
  rintro ⟨k, x⟩ ha
  simp only [pulseOver, lastEntry, ha] at h
  obtain ⟨rfl, hk⟩ := h
  rw [hgap, decide_eq_true hk]

/-- A pulse's level may be driven in its phase: the pulse before it is over. -/
theorem gapOk_pulse (hr : r ∈ pulseRows s.params) (hp : s.txPhase = r.phase) (ha : s.waitArmed = false)
    (h : phaseOnWire s) :
    ∀ a, s.wireLog.getLast? = some a → gapOk s.params a ⟨s.now, .level r.level⟩ = true := by
  rcases mem_pulseRows.1 hr with rfl | rfl | rfl <;> simp only [phaseOnWire, hp, ha] at h
  · exact gapOk_of_noPulse h _
  · exact gapOk_of_pulseOver h fun _ => rfl
  · exact gapOk_of_pulseOver h fun _ => rfl

/-- An entry that is no level leaves no pulse running. -/
theorem noPulse_log (he : e.level? = none) : noPulse (s.log e) := by
  simp [noPulse, lastEntry, he]

/-- Outside the `GPIO` phases any entry may be logged. -/
theorem pulsesOk_log (h : PulseInv s) (hi : s.inited = true) (hp : isGpioPhase s.txPhase = false) :
    pulsesOk s.params (s.log e).wireLog = true :=
  pulsesOk_append h.1 (gapOk_of_noPulse ((phaseOnWire_iff_noPulse hp).1 (h.2 hi)) e)

/-- A turn of a pulse: it drives its level after the pulse before it, and ends no sooner than its length,
for the cycles it reads as elapsed are at most the ticks since. -/
theorem pulseInv_pulse (hr : r ∈ pulseRows s.params) (hi : s.inited = true) (hp : s.txPhase = r.phase)
    (hc : s.cyc < modulus s.params) (h : PulseInv s) : PulseInv (pulse r.length r.level r.succ s) := by
  obtain ⟨hok, hwire⟩ := h
  have hwire := hwire hi
  rcases pulse_cases r.length r.level r.succ s with ⟨ha, e⟩ | ⟨-, -, e⟩ | ⟨ha, hn, e⟩ <;> rw [e]
  · exact ⟨pulsesOk_append hok (gapOk_pulse (s := s) hr hp ha hwire), fun _ =>
      (phaseOnWire_armed (s := s.armWait.driveTx r.level) hr hp rfl).2 (pulseRunning_armed s _ hc)⟩
  · exact ⟨hok, fun _ => hwire⟩
  · exact ⟨hok, fun _ => (phaseOnWire_succ (s := s.disarmWait.setTxPhase r.succ) hr rfl rfl).2
      (pulseOver_of_running ((phaseOnWire_armed hr hp ha).1 hwire) hn)⟩

/-- Every operation but a bare micro-operation keeps the timing invariant. -/
theorem Effect.pulseInv (h : Effect i s t) (hm : i.isMicroOp = false) (hs : BlockInv s) (hw : PulseInv s) :
    PulseInv t := by
  have hpulse {r : PulseRow} (hr : r ∈ pulseRows s.params) (hrun : Runs i r.op r.phase s) :
      PulseInv (pulse r.length r.level r.succ s) := by
    obtain ⟨hi, hp⟩ := hrun.admitted_pulse hr hm
    obtain ⟨-, hc, -⟩ := hs
    exact pulseInv_pulse hr hi hp hc hw
  cases h with
  | init hi =>
    obtain ⟨-, -, -, hempty, -⟩ := hs
    have hlog : s.construct.wireLog = [] := hempty hi
    exact ⟨by rw [hlog]; rfl, fun _ => (phaseOnWire_iff_noPulse rfl).2 (by simp [noPulse, lastEntry, hlog])⟩
  | started hi hp =>
    have hnone := (phaseOnWire_iff_noPulse (by rw [hp]; rfl)).1 (hw.2 hi)
    exact ⟨hw.1, fun _ => (phaseOnWire_iff_noPulse rfl).2 hnone⟩
  | ticked n => exact ⟨hw.1, fun hi => phaseOnWire_advance n (hw.2 hi)⟩
  | received => rw [storeSlot_frame]; exact hw
  | drained hi he =>
    have hp : isGpioPhase s.txPhase = false := by
      rcases (hs.txInv hi).idle_or_send he with hq | hq <;> rw [hq] <;> rfl
    exact ⟨pulsesOk_log hw hi hp, fun _ =>
      (phaseOnWire_iff_noPulse (s := (s.log (.frame s.tdr)).setTxe) hp).2 (noPulse_log rfl)⟩
  | pinTaken hr =>
    obtain ⟨hi, hp⟩ := hr.admitted hm rfl
    have ha : s.waitArmed = false := (hs.txInv hi).unarmed (by rw [hp]; rfl)
    refine ⟨pulsesOk_log hw hi (by rw [hp]; rfl), fun _ => ?_⟩
    simp only [phaseOnWire, State.setTxPhase_txPhase, State.setTxPhase_waitArmed, State.switchTxPin_waitArmed, ha]
    exact noPulse_log rfl
  | idleHigh hr => exact hpulse (.head _) hr
  | breakLow hr => exact hpulse (.tail _ (.head _)) hr
  | mabHigh hr => exact hpulse (.tail _ (.tail _ (.head _))) hr
  | pinGiven hr =>
    obtain ⟨hi, hp⟩ := hr.admitted hm rfl
    have hover : pulseOver s true s.params.tMab := by simpa only [phaseOnWire, hp] using hw.2 hi
    exact ⟨pulsesOk_append hw.1 (gapOk_of_pulseOver hover fun _ => rfl),
      fun _ => (phaseOnWire_iff_noPulse rfl).2 (noPulse_log rfl)⟩
  | sent hr =>
    obtain ⟨hi, hp⟩ := hr.admitted hm rfl
    have hnone := (phaseOnWire_iff_noPulse (by rw [hp]; rfl)).1 (hw.2 hi)
    rcases sendByte_cases s with ⟨-, e⟩ | ⟨-, e⟩ <;> rw [e]
    · exact hw
    · exact ⟨hw.1, fun _ => (phaseOnWire_iff_noPulse rfl).2 hnone⟩
  | _ => exact hw

/-- Settles O47: every effect of a word keeps the timing invariant. -/
theorem stepKeepsPulseTiming : Obligations.StepKeepsPulseTiming := by
  intro s t hs hw h
  rcases step_effect h with ⟨-, rfl⟩ | ⟨w, ws, i, -, hd, he⟩
  · exact hw
  · exact he.pulseInv (isMicroOp_of_decode_word hd) hs hw

/-! ### The wire result of a transmission (42_transmit_sequencer.md R179) -/

variable {before : List WireEvent} {bytes : Nat → Byte}

theorem startTx_next (h : exec .startTx s = .next t) : s.txe = true ∧ t = s.setTxPhase .pinGpio := by
  obtain ⟨-, -, h⟩ := foregroundOp_next h
  split at h <;> cases h
  exact ⟨by simpa using ‹¬s.txe = false›, rfl⟩

/-- `START_TX` begins a transmission of what `tx_buffer` holds. -/
theorem transmitting_of_startTx (h : exec .startTx s = .next t) :
    Transmitting (s.wireLog.map LogEntry.event) (s.memRead .txb) t := by
  obtain ⟨he, rfl⟩ := startTx_next h
  exact ⟨(List.append_nil _).symm, fun _ _ _ => rfl, nofun, by simp [he]⟩

/-- With `tdr` empty every byte loaded is on the wire. -/
theorem wireSoFar_drained (he : s.txe = true) (hp : s.txPhase = .idle ∨ s.txPhase = .send) :
    wireSoFar bytes s = preamble ++ framesOf bytes s.txIndex := by
  rcases hp with hp | hp <;> simp only [wireSoFar, hp, framesSent, he]

/-- While `tdr` holds a byte, all but that one are. -/
theorem wireSoFar_loaded (he : s.txe = false) (hp : s.txPhase = .idle ∨ s.txPhase = .send) :
    wireSoFar bytes s = preamble ++ framesOf bytes (s.txIndex - 1) := by
  rcases hp with hp | hp <;> simp only [wireSoFar, hp, framesSent, he]

/-- The visit that arms a pulse's wait adds its level. -/
theorem wireSoFar_armed (hr : r ∈ pulseRows s.params) (hp : s.txPhase = r.phase) (ha : s.waitArmed = false) :
    wireSoFar bytes (s.armWait.driveTx r.level) = wireSoFar bytes s ++ [WireEvent.level r.level] := by
  rcases mem_pulseRows.1 hr with rfl | rfl | rfl <;> simp [wireSoFar, hp, ha, preamble]

/-- The visit that ends it adds nothing. -/
theorem wireSoFar_succ (hr : r ∈ pulseRows s.params) (hp : s.txPhase = r.phase) (ha : s.waitArmed = true) :
    wireSoFar bytes (s.disarmWait.setTxPhase r.succ) = wireSoFar bytes s := by
  rcases mem_pulseRows.1 hr with rfl | rfl | rfl <;> simp [wireSoFar, hp, ha]

/-- Logging the entry by which the phase's part of the order grows. -/
theorem map_event_log (hlog : s.wireLog.map LogEntry.event = before ++ wireSoFar bytes s)
    {ws : List WireEvent} (h : ws = wireSoFar bytes s ++ [e]) :
    (s.log e).wireLog.map LogEntry.event = before ++ ws := by
  simp [hlog, h]

/-- A turn of a pulse logs its level or nothing. -/
theorem transmitting_pulse (hr : r ∈ pulseRows s.params) (hp : s.txPhase = r.phase)
    (h : Transmitting before bytes s) : Transmitting before bytes (pulse r.length r.level r.succ s) := by
  obtain ⟨hlog, hbuf, hidle, htdr⟩ := h
  have hbusy : s.txPhase ≠ .idle := by
    rw [hp]; rcases mem_pulseRows.1 hr with rfl | rfl | rfl <;> nofun
  have hsucc : r.succ ≠ .idle := by
    rcases mem_pulseRows.1 hr with rfl | rfl | rfl <;> nofun
  rcases pulse_cases r.length r.level r.succ s with ⟨ha, e⟩ | ⟨-, -, e⟩ | ⟨ha, -, e⟩ <;> rw [e]
  · exact ⟨map_event_log hlog (wireSoFar_armed hr hp ha), hbuf, hidle, htdr⟩
  · exact ⟨hlog, hbuf, hidle, htdr⟩
  · exact ⟨hlog.trans (by rw [wireSoFar_succ hr hp ha]), fun _ => hbuf hbusy, fun hq => absurd hq hsucc, htdr⟩

/-- The drain puts the byte of `tdr` on the wire, which is the last one loaded. -/
theorem transmitting_drained (he : s.txe = false) (hp : s.txPhase = .idle ∨ s.txPhase = .send)
    (h : Transmitting before bytes s) : Transmitting before bytes (s.log (.frame s.tdr)).setTxe := by
  obtain ⟨hlog, hbuf, hidle, htdr⟩ := h
  obtain ⟨hx, hb⟩ := htdr he
  refine ⟨map_event_log hlog ?_, hbuf, hidle, nofun⟩
  rw [wireSoFar_drained (s := (s.log (.frame s.tdr)).setTxe) rfl hp, wireSoFar_loaded he hp, hb,
    List.append_assoc, ← framesOf_succ, Nat.sub_add_cancel hx]
  rfl

/-- A byte loaded is the buffer's next, and not yet on the wire. -/
theorem transmitting_sendByte (hp : s.txPhase = .send) (he : s.txe = true)
    (hx : s.txIndex < s.params.txCapacity) (h : Transmitting before bytes s) :
    Transmitting before bytes (sendByte s) := by
  obtain ⟨hlog, hbuf, -, -⟩ := h
  have hbuf := hbuf (by rw [hp]; nofun)
  have hwire : wireSoFar bytes (sendByte s) = wireSoFar bytes s := by
    have hphase : (sendByte s).txPhase = .idle ∨ (sendByte s).txPhase = .send := by
      rw [sendByte_of_send hp]; exact ite_eq_or_eq ..
    rw [wireSoFar_drained he (.inr hp), wireSoFar_loaded (sendByte_txe s) hphase, sendByte_of_send hp]
    rfl
  refine ⟨?_, ?_, ?_, fun _ => ?_⟩
  · rw [hwire, sendByte_frame]
    exact hlog
  · rw [sendByte_frame]
    exact fun _ => hbuf
  · rw [sendByte_of_send hp]
    intro hq
    by_contra hn
    simp [hn] at hq
  · rw [sendByte_of_send hp]
    exact ⟨Nat.succ_pos _, hbuf _ hx⟩

/-- Every operation but a bare micro-operation and the next `START_TX` keeps to the order. -/
theorem Effect.transmitting (h : Effect i s t) (hm : i.isMicroOp = false) (hs : BlockInv s)
    (hi : s.inited = true) (hstart : s.txPhase = .idle → i ≠ .startTx) (hw : Transmitting before bytes s) :
    Transmitting before bytes t := by
  have ht := hs.txInv hi
  have hpulse {r : PulseRow} (hr : r ∈ pulseRows s.params) (hrun : Runs i r.op r.phase s) :
      Transmitting before bytes (pulse r.length r.level r.succ s) := by
    obtain ⟨-, hp⟩ := hrun.admitted_pulse hr hm
    exact transmitting_pulse hr hp hw
  cases h with
  | init hf => rw [hi] at hf; cases hf
  | started _ hp => exact absurd rfl (hstart hp)
  | stored idx val _ hp =>
    obtain ⟨hlog, -, hidle, htdr⟩ := hw
    exact ⟨hlog, fun hq => absurd hp hq, hidle, htdr⟩
  | received => rw [storeSlot_frame]; exact hw
  | drained _ he => exact transmitting_drained he (ht.idle_or_send he) hw
  | pinTaken hr =>
    obtain ⟨-, hp⟩ := hr.admitted hm rfl
    obtain ⟨hlog, hbuf, -, htdr⟩ := hw
    have ha : s.waitArmed = false := ht.unarmed (by rw [hp]; rfl)
    exact ⟨map_event_log hlog (by simp [wireSoFar, hp, ha, preamble]), fun _ => hbuf (by rw [hp]; nofun), nofun,
      htdr⟩
  | idleHigh hr => exact hpulse (.head _) hr
  | breakLow hr => exact hpulse (.tail _ (.head _)) hr
  | mabHigh hr => exact hpulse (.tail _ (.tail _ (.head _))) hr
  | pinGiven hr =>
    obtain ⟨-, hp⟩ := hr.admitted hm rfl
    obtain ⟨hlog, hbuf, -, -⟩ := hw
    have he : s.txe = true := ht.drained_of_gpioPhase (by rw [hp]; rfl)
    exact ⟨map_event_log hlog (by simp [wireSoFar, framesSent, hp, he, preamble]),
      fun _ => hbuf (by rw [hp]; nofun), nofun, by simp [he]⟩
  | sent hr he hx =>
    obtain ⟨-, hp⟩ := hr.admitted hm rfl
    exact transmitting_sendByte hp he hx hw
  | _ => exact hw

/-- Only `START_TX` leaves `IDLE`. -/
theorem idle_of_exec (h : exec i s = .next t) (hm : i.isMicroOp = false) (hi : s.inited = true)
    (hp : s.txPhase = .idle) (hstart : i ≠ .startTx) : t.txPhase = .idle := by
  obtain ⟨-, -, -, -, -, hphase, -⟩ := onlyTheseOperationsWrite i s t h
  by_contra hq
  rcases hphase (fun heq => hq (heq.trans hp)) with rfl | rfl | rfl | hmicro
  · rw [exec_init_again hi] at h; cases h
  · exact hstart rfl
  · rw [exec_txStep_idle hi hp] at h; cases h
  · rw [hm] at hmicro; cases hmicro

theorem exec_envTxDrain_drained (hi : s.inited = true) (he : s.txe = true) : exec .envTxDrain s = .next s := by
  change execEnvTxDrain s = _
  simp [execEnvTxDrain, whenInited_admitted hi, he]

/-- A transmission that has returned and been drained has all its frames on the wire. -/
theorem Transmitting.complete (h : Transmitting before bytes s) (hp : s.txPhase = .idle) (he : s.txe = true) :
    s.wireLog.map LogEntry.event = before ++ preamble ++ framesOf bytes s.params.txCapacity := by
  obtain ⟨hlog, -, hidle, -⟩ := h
  rw [hlog, wireSoFar_drained he (.inl hp), hidle hp, List.append_assoc]

/-- Settles O52: `START_TX` begins with nothing logged, each effect of a word adds what its phase says, and a
drain after the return adds the one frame that can be missing. -/
theorem transmissionWireResult : Obligations.TransmissionWireResult := by
  refine ⟨fun _ _ => transmitting_of_startTx, fun before bytes s t hs hi hw hstart h => ?_,
    fun before bytes s hi hp hw => ?_⟩
  · rcases step_next h with ⟨-, rfl⟩ | ⟨w, ws, i, htrace, hd, h⟩
    · exact ⟨hw, hi, id⟩
    · have hm := isMicroOp_of_decode_word hd
      have hnot : s.txPhase = .idle → i ≠ .startTx := by
        rintro hp rfl
        exact hstart hp w ws htrace hd
      obtain ⟨hinited, -⟩ := setupIsForever i (s.setTrace ws) t hi h
      exact ⟨(exec_effect h).transmitting hm hs hi hnot hw, hinited, fun hp => idle_of_exec h hm hi hp (hnot hp)⟩
  · cases he : s.txe with
    | true => exact ⟨s, exec_envTxDrain_drained hi he, hw.complete hp he⟩
    | false =>
      exact ⟨_, exec_envTxDrain hi he, (transmitting_drained he (.inl hp) hw).complete hp rfl⟩

end Sys2Proof.Machine
end

section
/-!
PROOF. The timing primitive (43_timing_primitive.md): what a tick changes, what a wait reads after any ticks, and
the poll that ends a wait.
-/

namespace Sys2Proof.Machine

variable {s : State}

/-! ### Ticks (43_timing_primitive.md R191) -/

theorem exec_envTick (n : Nat) (s : State) : exec (.envTick n) s = .next (s.advance n) := rfl

/-- Settles O25: a tick is `advance`, with no check before it. -/
theorem tickAdvancesTime : Obligations.TickAdvancesTime := by
  intro s n
  exact exec_envTick n s

theorem advance_zero (hc : s.cyc < modulus s.params) : s.advance 0 = s := by
  simp only [State.advance, Nat.add_zero, Nat.mod_eq_of_lt hc]

theorem advance_advance (s : State) (m n : Nat) : (s.advance m).advance n = s.advance (m + n) := by
  simp only [State.advance, Nat.mod_add_mod, Nat.add_assoc]

/-- Ticks in a row are one tick of their sum. -/
theorem execAll_envTicks (ns : List Nat) (hc : s.cyc < modulus s.params) :
    execAll (ns.map .envTick) s = .next (s.advance ns.sum) := by
  induction ns generalizing s with
  | nil => rw [List.map_nil, execAll_nil, List.sum_nil, advance_zero hc]
  | cons n ns ih =>
    have hc' : (s.advance n).cyc < modulus (s.advance n).params := Nat.mod_lt _ (modulus_pos _)
    rw [List.map_cons, execAll_cons (exec_envTick n s), ih hc', advance_advance, List.sum_cons]

/-! ### The busy-wait (43_timing_primitive.md R192, R193) -/

/-- Settles O50: the ticks are one tick of their sum, and a wait that begins at `cyc` has nothing elapsed. -/
theorem waitMeasuresTicks : Obligations.WaitMeasuresTicks := by
  intro s ns hc ht0
  have hzero : s.elapsed = 0 % modulus s.params :=
    elapsed_of_cyc (by rw [ht0, Nat.add_zero]; exact (Nat.mod_eq_of_lt hc).symm)
  refine ⟨s.advance ns.sum, execAll_envTicks ns hc, ?_, rfl⟩
  rw [elapsed_advance, hzero, Nat.zero_mod, Nat.zero_add, modulus]

/-- A tick within the counter's round adds its cycles to what a wait reads as elapsed. -/
theorem elapsed_advance_of_cyc {k n : Nat} (hc : s.cyc = (s.waitT0 + k) % modulus s.params)
    (hlt : k + n < modulus s.params) : (s.advance n).elapsed = k + n := by
  rw [elapsed_advance, elapsed_of_cyc hc, Nat.mod_add_mod, Nat.mod_eq_of_lt hlt]

/-- Settles O51: after the tick the wait reads `k + n` cycles, which reach the pulse's length, so the poll is
the turn that ends the pulse. -/
theorem waitEndsOnceElapsed : Obligations.WaitEndsOnceElapsed := by
  intro s r k n hr hi hp ha hc hlen hlt
  have helapsed : r.length ≤ (s.advance n).elapsed := hlen.trans (elapsed_advance_of_cyc hc hlt).ge
  have hpoll : exec .txStep (s.advance n) = .next ((s.advance n).disarmWait.setTxPhase r.succ) := by
    rw [exec_txStep_pulse (s := s.advance n) hr hi hp, pulse_ends (s := s.advance n) ha helapsed]
  refine ⟨(s.advance n).disarmWait.setTxPhase r.succ, ?_, rfl, rfl⟩
  rw [execAll_cons (exec_envTick n s), execAll_cons hpoll, execAll_nil]

end Sys2Proof.Machine
end

section
/-!
PROOF. The environment's side of the UART and the interrupt line (44_uart_and_pins_boundary.md): what a drain
puts on the wire, and what enabling the line does to the first event.
-/

namespace Sys2Proof.Machine

variable {i : Instr} {is : List Instr} {s : State} {r : Refusal}

/-! ### The drain (44_uart_and_pins_boundary.md R205) -/

/-- Settles O26: a drain checks `inited`, then `txe`. -/
theorem drainSendsTheFrame : Obligations.DrainSendsTheFrame := fun _ =>
  ⟨exec_envTxDrain_early, fun hi => ⟨exec_envTxDrain_drained hi, exec_envTxDrain hi⟩⟩

/-! ### The interrupt line (44_uart_and_pins_boundary.md R206) -/

theorem exec_envIrqEn (s : State) : exec .envIrqEn s = .next s.setIrqEnabled := rfl

/-- A refused operation ends the run. -/
theorem execAll_cons_refused (h : exec i s = .refused r) : execAll (i :: is) s = .refused r := by
  simp [execAll, h]

/-- Settles O27: enabling has no check, so before `INIT` it leaves a state in which the line is enabled and
`inited` still false, where O28 refuses every event. -/
theorem irqEnableSetsTheLine : Obligations.IrqEnableSetsTheLine := by
  refine ⟨by decide, fun s => ⟨exec_envIrqEn s, fun hi fe rxne data => ?_⟩⟩
  have hevent : exec (.rxIrq fe rxne data) s.setIrqEnabled = .refused .notInitialised :=
    (handlerAdmission s.setIrqEnabled fe rxne data).2 s.setIrqEnabled_irqEnabled hi
  rw [execAll_cons (exec_envIrqEn s), execAll_cons_refused hevent]

end Sys2Proof.Machine
end

section
/-!
PROOF. The exceptions (60_exceptions.md): what the error conditions do, what each context may change, and that
no step faults.
-/

namespace Sys2Proof.Machine

variable {i : Instr} {s t : State} {k k' : Result} {c : Condition}

/-! ### The error conditions (60_exceptions.md R215 to R218) -/

theorem mem_conditions_break {rxne : Bool} {data : Byte} :
    c ∈ conditions (Snapshot.sample true rxne data) s ↔ c = .framingBreak :=
  List.mem_singleton

/-- A data byte raises `CND_BUSY` by `rx_ready` and `CND_OVERRUN` by `rx_position`, each on its own. -/
theorem mem_conditions_data {data : Byte} : c ∈ conditions (Snapshot.sample false true data) s ↔
    (c = .busy ∧ s.rxReady = true) ∨ (c = .overrun ∧ s.rxPosition = s.params.rxCapacity) := by
  simp [Snapshot.sample, conditions, and_comm]

theorem conditions_noFlags {data : Byte} : conditions (Snapshot.sample false false data) s = [] := rfl

/-- A data byte that raises a condition is dropped. -/
theorem storeSlot_of_mem_conditions {data : Byte}
    (h : c ∈ conditions (Snapshot.sample false true data) s) : storeSlot data s = s := by
  rcases mem_conditions_data.1 h with ⟨-, hready⟩ | ⟨-, hfull⟩
  · exact storeSlot_dropped (.inr hready)
  · exact storeSlot_dropped (.inl hfull.ge)

/-- Settles O34: a break raises its own condition alone, no flags raise none, and a data byte that raises one
meets a guard of the slot store. -/
theorem errorConditionsAreNextStates : Obligations.ErrorConditionsAreNextStates := by
  intro s fe rxne data he hi
  match fe, rxne with
  | true, rxne =>
    have hstep : exec (.rxIrq true rxne data) s = .next (s.setRxPosition 0) := exec_rxIrqBreak he hi rxne data
    exact ⟨iff_of_true rfl (mem_conditions_break.2 rfl), nofun, nofun, fun _ => hstep,
      by simp [mem_conditions_break]⟩
  | false, true =>
    have hdrop {c} (h : c ∈ conditions (Snapshot.sample false true data) s) :
        exec (.rxIrq false true data) s = .next s := by
      rw [Instr.rxIrq, exec_rxIrqData he hi, storeSlot_of_mem_conditions h]
    refine ⟨?_, ?_, ?_, ?_, Or.rec hdrop hdrop⟩ <;> simp [mem_conditions_data]
  | false, false => simp [conditions_noFlags]

/-! ### The contexts (60_exceptions.md R228) -/

/-- `t` differs from `s` only where the interrupt context writes, and `rx_ready` is not cleared. -/
def InterruptFrame (s t : State) : Prop :=
  t = { s with rxBuffer := t.rxBuffer, rxPosition := t.rxPosition, rxReady := t.rxReady } ∧
  (s.rxReady = true → t.rxReady = true)

/-- A receive event stays in the frame when its body does: a lost one changes nothing. -/
theorem interruptFrame_of_takeInterrupt {body : State → State} (hb : InterruptFrame s (body s))
    (h : takeInterrupt body s = .next t) : InterruptFrame s t := by
  rcases takeInterrupt_next h with ⟨-, rfl⟩ | ⟨-, -, rfl⟩
  · exact ⟨rfl, id⟩
  · exact hb

/-- The slot store only ever sets `rx_ready`: while it is true the byte is dropped. -/
theorem interruptFrame_storeSlot (data : Byte) (s : State) : InterruptFrame s (storeSlot data s) :=
  ⟨storeSlot_frame data s, fun hr => by rwa [storeSlot_dropped (.inr hr)]⟩

/-- Settles O38: each of the three receive events is a handler invocation whose body stays in the frame. -/
theorem interruptContextFrame : Obligations.InterruptContextFrame := by
  intro i s t hg h
  cases i with
  | rxIrqBreak => exact interruptFrame_of_takeInterrupt (body := restartUniverse) ⟨rfl, id⟩ h
  | rxIrqData data => exact interruptFrame_of_takeInterrupt (interruptFrame_storeSlot data s) h
  | rxIrqNone => exact interruptFrame_of_takeInterrupt (body := fun t => t) ⟨rfl, id⟩ h
  | _ => cases hg

/-- Settles O39: of the effects of a foreground operation only that of `INIT`, which an initialised block
refuses, and that of `FREE_PKT`, which clears `rx_ready`, reach the receive side. -/
theorem foregroundFrame : Obligations.ForegroundFrame := by
  intro i s t hg hi h
  cases exec_effect h with
  | init hf => rw [hi] at hf; cases hf
  | lostEvent hint => rw [hg] at hint; cases hint
  | broke | received | noFlags | ticked | nothingToDrain | drained | lineEnabled => cases hg
  | freed => exact ⟨rfl, rfl, nofun, rfl, rfl, rfl, rfl⟩
  | returned | started | stored | pinTaken | pinGiven | sendWaits => exact ⟨rfl, rfl, id, rfl, rfl, rfl, rfl⟩
  | idleHigh | breakLow | mabHigh =>
    rw [pulse_frame]
    exact ⟨rfl, rfl, id, rfl, rfl, rfl, rfl⟩
  | sent =>
    rw [sendByte_frame]
    exact ⟨rfl, rfl, id, rfl, rfl, rfl, rfl⟩

/-! ### No step faults (60_exceptions.md R226) -/

/-- Whatever the fault, the outcome `k` is not it. -/
def NeverFaults (k : Result) : Prop := ∀ r : Fault, k ≠ .fault r

theorem neverFaults_next (t : State) : NeverFaults (.next t) := fun _ => nofun

theorem neverFaults_refused (r : Refusal) : NeverFaults (.refused r) := fun _ => nofun

theorem NeverFaults.ite {p : Prop} [Decidable p] (h : NeverFaults k) (h' : NeverFaults k') :
    NeverFaults (if p then k else k') := by
  split
  · exact h
  · exact h'

theorem NeverFaults.whenInited (h : NeverFaults k) : NeverFaults (whenInited s k) :=
  (neverFaults_refused _).ite h

theorem NeverFaults.foregroundOp (h : NeverFaults k) : NeverFaults (foregroundOp s k) :=
  (h.ite (neverFaults_refused _)).whenInited

theorem NeverFaults.withIndex {b : Buffer} {idx : Nat} (h : NeverFaults k) :
    NeverFaults (withIndex s b idx k) :=
  h.ite (neverFaults_refused _)

theorem neverFaults_takeInterrupt (body : State → State) (s : State) : NeverFaults (takeInterrupt body s) :=
  (neverFaults_next _).ite ((neverFaults_refused _).ite (neverFaults_next _))

theorem neverFaults_execTxsSend (s : State) : NeverFaults (execTxsSend s) :=
  (neverFaults_next _).ite (neverFaults_next _).withIndex

theorem neverFaults_execTxStep (s : State) : NeverFaults (execTxStep s) := by
  refine NeverFaults.whenInited ?_
  cases s.txPhase with
  | idle => exact neverFaults_refused _
  | pinGpio | idleHigh | breakLow | mabHigh | pinAf => exact neverFaults_next _
  | send => exact neverFaults_execTxsSend s

/-- Every operation answers a next state or a refusal, whatever the state. -/
theorem neverFaults_exec (i : Instr) (s : State) : NeverFaults (exec i s) := by
  cases i with
  | init => exact (neverFaults_refused _).ite (neverFaults_next _)
  | pktAvail | getPkt | getRxLen | freePkt | getTxBuf => exact (neverFaults_next _).foregroundOp
  | startTx => exact ((neverFaults_refused _).ite (neverFaults_next _)).foregroundOp
  | rxbLd => exact ((neverFaults_refused _).ite (neverFaults_next _).withIndex).foregroundOp
  | txbLd | txbSt => exact (neverFaults_next _).withIndex.foregroundOp
  | txStep => exact neverFaults_execTxStep s
  | rxIrqBreak | rxIrqData | rxIrqNone => exact neverFaults_takeInterrupt _ s
  | envTick | envIrqEn => exact neverFaults_next _
  | envTxDrain => exact ((neverFaults_next _).ite (neverFaults_next _)).whenInited
  | txsPinGpio | txsIdleHigh | txsBreakLow | txsMabHigh | txsPinAf => exact neverFaults_next _
  | txsSend => exact neverFaults_execTxsSend s

theorem neverFaults_step (s : State) : NeverFaults (step s) := by
  cases htr : s.trace with
  | nil =>
    rw [step_of_trace_nil htr]
    exact neverFaults_next s
  | cons w ws =>
    cases hd : decode (.word w) with
    | ok i =>
      rw [step_of_decode htr hd]
      exact neverFaults_exec i _
    | error e =>
      rw [step_of_decode_error htr hd]
      exact neverFaults_refused _

/-- Under the invariant `TX_STEP` is refused only before `INIT` and in `IDLE` (20_memory.md R63). -/
theorem exec_txStep_ne_indexOutOfRange (h : BlockInv s) : exec .txStep s ≠ .refused .indexOutOfRange := by
  cases hi : s.inited with
  | false => rw [exec_txStep_early hi]; exact nofun
  | true =>
    by_cases hp : s.txPhase = .idle
    · rw [exec_txStep_idle hi hp]
      exact nofun
    · obtain ⟨t, ht⟩ := exec_txStep_runs h hi hp
      rw [ht]
      exact nofun

/-- Settles O46: no operation faults, and the invariant bounds the sequencer's index. -/
theorem stepNeverFaults : Obligations.StepNeverFaults := by
  refine fun s => ⟨neverFaults_step s, fun h w ws htr hd => ?_⟩
  rw [step_of_decode htr hd]
  exact exec_txStep_ne_indexOutOfRange (s := s.setTrace ws) h

end Sys2Proof.Machine
end
